-- ==== Sys2Proof/Word.lean ====
section
/-! DEFINITION. The bit-vector types of the OP-24: a byte of the order link (R156, R158), a 32-bit
word (a settings entry, R180; a path position, R97; an image handle, R2) and the 16-bit register of
the frame check (R159). Every other quantity of the manual is an integer in a stated unit (1.8) and
is a `Nat` or an `Int`. -/

namespace Sys2Proof

/-- One byte of an order-link frame (R156). -/
abbrev Byte := BitVec 8

/-- A 32-bit word: a settings entry, a path position or an image handle. -/
abbrev Word32 := BitVec 32

/-- The register of the frame check (R159). -/
abbrev Crc := BitVec 16

end Sys2Proof
end

