-- ==== Sys2Proof/Syntax.lean ====
section
/-! DEFINITION. The commands of the OP-24: one constructor of `Instr` for each row of
spec/opcode_table.json, in the table's order, with the row's operands. A request row carries the
sending station and the tag of its frame (R158) and the items its rule names, unvalidated: the rules
themselves say which items are refused BAD_VALUE, so an item is the number its bytes spell. An event
row carries what the event brings from outside (the bytes of a frame, a pixel line, the levels of
the sensed lines). -/

namespace Sys2Proof

/-- The two paper magazines, in the order the manual lists them (R80). -/
inductive Magazine where
  | a
  | b
  deriving DecidableEq, Repr

/-- The magazine that is not the given one. -/
def Magazine.other : Magazine → Magazine
  | .a => .b
  | .b => .a

/-- The words of a slot that R177 and R178 tell apart: the number word, the state word, and any
other word, by its place in the slot. -/
inductive RecordWord where
  | number
  | state
  | other (index : Nat)
  deriving DecidableEq, Repr

/-- Wrong bits in one stored word of one slot: how many of the word's 39 bits (32 and the 7-bit check
code, R177) differ from what was written. -/
structure Upset where
  slot : Nat
  word : RecordWord
  bits : Nat
  deriving DecidableEq, Repr

/-- The levels of one magazine's sensor and code lines as a start senses them (R80, R94). -/
structure SensedMagazine where
  present     : Bool
  widthCode   : Nat
  surfaceCode : Nat
  paperEnd    : Bool
  deriving DecidableEq, Repr

/-- The levels a start senses: both magazines and the lamp comparator (R94), and which of the doors
1..24 are open (R128). -/
structure Sensed where
  magA      : SensedMagazine
  magB      : SensedMagazine
  lampLow   : Bool
  doorsOpen : List Bool
  deriving DecidableEq, Repr

/-- The pixel codes of one head element, one for each channel (R88). -/
structure Pixel where
  r : Byte
  g : Byte
  b : Byte
  deriving DecidableEq, Repr

/-- What a request frame brings beside its items: the sending station and the tag (R158). -/
structure Header where
  source : Nat
  tag    : Byte
  deriving DecidableEq, Repr

/-- A full line as ADD_LINE and CHANGE_LINE carry it (R8). -/
structure LineItem where
  size     : Nat
  surface  : Nat
  quantity : Nat
  border   : Nat
  d        : Int
  c        : Int
  m        : Int
  y        : Int
  handle   : Word32
  deriving DecidableEq, Repr

/-- The selector of FIND_ORDERS (R27): a customer tag, a state code or an owner station. -/
inductive Selector where
  | tag (chars : List Byte)
  | state (code : Nat)
  | owner (station : Nat)
  deriving DecidableEq, Repr

/-- The work that can stand waiting on a store write cycle and that WAITING_READ_PROCEEDS then makes
(R183): the request in progress on the link, a selection, a unit start, the switch-time read of a
magazine change, and the result of a test strip. -/
inductive WaitingWork where
  | request
  | selection
  | unitStart
  | switchTime
  | calibrationResult
  deriving DecidableEq, Repr

/-- A request of the catalogue (R167), with the items of its rule. The last constructor is a request whose body
has a length that fits its items and yet spells none of the others, because a flag, presence or selector kind
byte holds a value that codes nothing (R158, R163, log entry 8). -/
inductive Request where
  | openOrder (cls : Nat) (promise : Option Nat) (customerTag : Option (List Byte))
  | addLine (number : Nat) (line : LineItem)
  | changeLine (number position : Nat) (line : LineItem)
  | dropLine (number position : Nat)
  | submit (number : Nat)
  | withdraw (number : Nat)
  | cancel (number : Nat)
  | readOrder (number : Nat)
  | findOrders (selector : Selector) (start : Nat)
  | setClock (minute second : Nat)
  | readClock
  | retryFault (number : Nat)
  | promote (number : Nat)
  | readQueue (start : Nat) (number : Option Nat)
  | halt
  | resume
  | selectMagazine
  | loadMagazine (magazine metres : Nat)
  | lutWrite (bank channel start : Nat) (levels : List Nat)
  | lutSwitch
  | readEngine
  | clearFault (clearCounts : Option Bool)
  | readTrain (place : Nat)
  | collect (number : Nat)
  | readBins
  | emptyTrays (selection : Nat)
  | quote (number : Nat)
  | pay (number amount : Nat)
  | startCal (surface : Nat)
  | waiveCal (surface : Nat)
  | readCal (surface : Nat)
  | linkSetup (address lab : Option Nat)
  | reset
  | readLink
  | readViolation
  | clearViolation
  | readNotices
  | clearNotice (kind : Nat)
  | setNoticeEnables (mask : BitVec 16)
  | storeRead (sheet start count : Nat)
  | storeWrite (sheet start : Nat) (values : List Word32)
  | releaseDamaged (slot : Nat)
  | unspelled (code : Nat) (body : List Byte)
  deriving DecidableEq, Repr

/-- The commands of the part, one for each row of the opcode table. -/
inductive Instr where
  | coldStart (sensed : Sensed)
  | retainedStart (sensed : Sensed) (upsets : List Upset)
  | resetInputAsserted
  | warmResetEffect (magA magB : SensedMagazine)
  | frameReceived (line : List Byte)
  | linkCharacterError
  | frameOversize
  | requestTaken
  | responseSent
  | openOrder (h : Header) (cls : Nat) (promise : Option Nat) (customerTag : Option (List Byte))
  | addLine (h : Header) (number : Nat) (line : LineItem)
  | changeLine (h : Header) (number position : Nat) (line : LineItem)
  | dropLine (h : Header) (number position : Nat)
  | submit (h : Header) (number : Nat)
  | withdraw (h : Header) (number : Nat)
  | cancel (h : Header) (number : Nat)
  | readOrder (h : Header) (number : Nat)
  | findOrders (h : Header) (selector : Selector) (start : Nat)
  | setClock (h : Header) (minute second : Nat)
  | readClock (h : Header)
  | retryFault (h : Header) (number : Nat)
  | promote (h : Header) (number : Nat)
  | readQueue (h : Header) (start : Nat) (number : Option Nat)
  | halt (h : Header)
  | resume (h : Header)
  | selectMagazine (h : Header)
  | loadMagazine (h : Header) (magazine metres : Nat)
  | lutWrite (h : Header) (bank channel start : Nat) (levels : List Nat)
  | lutSwitch (h : Header)
  | readEngine (h : Header)
  | clearFault (h : Header) (clearCounts : Option Bool)
  | readTrain (h : Header) (place : Nat)
  | collect (h : Header) (number : Nat)
  | readBins (h : Header)
  | emptyTrays (h : Header) (selection : Nat)
  | quote (h : Header) (number : Nat)
  | pay (h : Header) (number amount : Nat)
  | startCal (h : Header) (surface : Nat)
  | waiveCal (h : Header) (surface : Nat)
  | readCal (h : Header) (surface : Nat)
  | linkSetup (h : Header) (address lab : Option Nat)
  | reset (h : Header)
  | readLink (h : Header)
  | readViolation (h : Header)
  | clearViolation (h : Header)
  | readNotices (h : Header)
  | clearNotice (h : Header) (kind : Nat)
  | setNoticeEnables (h : Header) (mask : BitVec 16)
  | storeRead (h : Header) (sheet start count : Nat)
  | storeWrite (h : Header) (sheet start : Nat) (values : List Word32)
  | releaseDamaged (h : Header) (slot : Nat)
  | writeCycleEnd
  | waitingReadProceeds (work : WaitingWork)
  | secondEvent
  | draftTimeout
  | minuteEvent
  | linePeriodEnd
  | switchTimerExpiry
  | firstLineTimeout
  | imageDelivery (unit line : Nat) (pixels : List Pixel)
  | lampSupplyLow
  | lampSupplyRecovery
  | lampTimerExpiry
  | magazineInserted (magazine : Magazine) (widthCode surfaceCode : Nat) (paperEnd : Bool)
  | magazineRemoved (magazine : Magazine)
  | paperEnd (magazine : Magazine)
  | paperEndClear (magazine : Magazine)
  | encoderEvent
  | windowExpiry
  | markEvent
  | conversionEnd (value : Nat)
  | binDoorOpen (bin : Nat)
  | binDoorClose (bin : Nat)
  | markerReceivedInHunt
  | powerLoss
  deriving DecidableEq, Repr

end Sys2Proof
end

