-- ==== Sys2Proof/Machine/Records.lean ====
section
/-! DEFINITION. The records the blocks of the OP-24 keep, as plain data: the order slot (R1, R2), the
print unit (R32), the figures entry (R34), the engine's parts (R70, R80, R87, R90), the paper train
(R98), the bins (R111), the calibration records (R143, R147, R154), the link's frames and violation
(R158, R161, R171), the notices (R174) and the settings sheets (R180). State.lean puts them
together. -/

namespace Sys2Proof.Machine

/-! ### Orders (R1, R2) -/

/-- Billing class and queue class (R1). -/
inductive OrderClass where
  | standard
  | rush
  deriving DecidableEq, Repr

/-- The nine order states, in the order R1 lists them. -/
inductive OrderState where
  | draft
  | held
  | queued
  | exposing
  | complete
  | ready
  | cancelling
  | fault
  | damaged
  deriving DecidableEq, Repr

/-- Whether the borders of a line are exposed at border tone (R2). -/
inductive Border where
  | none
  | white
  deriving DecidableEq, Repr

/-- A line record (R2). -/
structure Line where
  size     : Nat
  surface  : Nat
  quantity : Nat
  border   : Border
  d        : Int
  c        : Int
  m        : Int
  y        : Int
  handle   : Word32
  clamped  : Bool
  deriving DecidableEq, Repr

/-- A price record (R136), in cents. -/
structure PriceRecord where
  subtotal     : Nat
  rushAdd      : Nat
  lateDiscount : Nat
  total        : Nat
  writeCount   : Nat
  deriving DecidableEq, Repr

/-- The fields of a live slot (R1). -/
structure Order where
  number      : Nat
  owner       : Nat
  tag         : Option (List Byte)
  cls         : OrderClass
  queueClass  : OrderClass
  promised    : Option Nat
  state       : OrderState
  lines       : List Line
  requested   : Nat
  delivered   : Nat
  outstanding : Nat
  spoils      : Nat
  trayCount   : Nat
  bin         : Option Nat
  late        : Bool
  spill       : Bool
  disturbed   : Bool
  clamped     : Bool
  price       : Option PriceRecord
  paid        : Bool
  collected   : Bool
  idle        : Nat
  voids       : Option Nat
  deriving DecidableEq, Repr

/-- The fields of a slot but its number and its state, which have words of their own (R1, R177); a line by its
place from 0. -/
inductive SlotField where
  | owner | tag | cls | queueClass | promised | lineCount | requested | delivered | outstanding | spoils
  | trayCount | bin | late | spill | disturbed | clamped | price | paid | collected | idle | voids
  | line (index : Nat)
  deriving DecidableEq, Repr

/-! ### Print units and the queue (R32, R34, R37) -/

/-- The kind of a unit (R32). -/
inductive UnitKind where
  | print
  | reprint
  | strip
  deriving DecidableEq, Repr

/-- Where a unit is (R32). -/
inductive Place where
  | queue
  | engine
  | train
  deriving DecidableEq, Repr

/-- The figures the Dose Calculator writes into a unit at its start (R56), in quarter-microseconds. -/
structure Exposure where
  timeR  : Nat
  timeG  : Nat
  timeB  : Nat
  clampR : Bool
  clampG : Bool
  clampB : Bool
  period : Nat
  deriving DecidableEq, Repr

/-- A record of the unit pool (R32). Its length is G + P + M, computed by `PrintUnit.length`. -/
structure PrintUnit where
  kind     : UnitKind
  slot     : Option Nat
  number   : Option Nat
  position : Option Nat
  copy     : Option Nat
  lineage  : Nat
  surface  : Nat
  width    : Option Nat
  lead     : Nat
  print    : Nat
  border   : Nat
  mark     : Nat
  place    : Place
  spoiled  : Bool
  void     : Bool
  exposure : Option Exposure
  deriving DecidableEq, Repr

/-- A line figure record (R34). -/
structure LineFigure where
  lead   : Nat
  print  : Nat
  border : Nat
  mark   : Nat
  width  : Nat
  deriving DecidableEq, Repr

/-- The figures entry of an order: one figure record a line, and the missing list of (line position,
copy index) pairs (R34). -/
structure FigureEntry where
  figures : List LineFigure
  missing : List (Nat × Nat)
  deriving DecidableEq, Repr

/-- Why the latest failed held trial failed (R37), in the order READ_QUEUE lists the causes (R52). -/
inductive HeldCause where
  | room
  | sizeSheet
  | sizeUnused
  deriving DecidableEq, Repr

/-! ### The engine (R70, R72, R80, R87, R90) -/

/-- Engine states (R70). -/
inductive EngineState where
  | idle
  | switching
  | exposing
  | held
  deriving DecidableEq, Repr

/-- The phases of a unit's exposure (R76). -/
inductive Phase where
  | lead
  | topBorder
  | image
  | bottomBorder
  | mark
  deriving DecidableEq, Repr

/-- The hold-reason set (R70, R72), one member a field in the order R70 lists them. -/
structure HoldSet where
  labHalt     : Bool
  cutterFault : Bool
  lampLow     : Bool
  trainFull   : Bool
  sheetBad    : Bool
  deriving DecidableEq, Repr

/-- A line buffer (R70, R87): empty, or holding a line index that is requested, or that is complete
with its pixels. -/
inductive LineBuffer where
  | empty
  | requested (line : Nat)
  | complete (line : Nat) (pixels : List Pixel)
  deriving DecidableEq, Repr

/-- The drive levels of one head element, one a channel. -/
structure HeadLevel where
  r : Nat
  g : Nat
  b : Nat
  deriving DecidableEq, Repr

/-- What the head exposes in the line in progress (R76): nothing, one level a channel across the head
(border tone, grey patch, mark), or a level for each head element. -/
inductive HeadOutput where
  | unlit
  | uniform (level : HeadLevel)
  | image (levels : List HeadLevel)
  deriving DecidableEq, Repr

/-- One LUT bank: three tables of 256 drive levels (R90). -/
structure LutBank where
  red   : List Nat
  green : List Nat
  blue  : List Nat
  deriving DecidableEq, Repr

/-- A magazine record (R80). -/
structure MagazineRecord where
  present   : Bool
  width     : Option Nat
  surface   : Option Nat
  remaining : Nat
  paperEnd  : Bool
  deriving DecidableEq, Repr

/-! ### The train and the sorter (R98, R111) -/

/-- The expected cut position and the window of a train entry (R98, R99). -/
structure CutFigures where
  expected : Word32
  window   : Nat
  deriving DecidableEq, Repr

/-- An entry of the paper train (R98). Its SPOILED and VOID flags are its unit's; its figures are absent
while they are pending. -/
structure TrainEntry where
  unit    : Nat
  mark    : Word32
  figures : Option CutFigures
  deriving DecidableEq, Repr

/-- Bin states (R111). -/
inductive BinState where
  | free
  | filling
  | ready
  | discard
  deriving DecidableEq, Repr

/-- A bin record (R111). -/
structure Bin where
  state  : BinState
  number : Option Nat
  slot   : Option Nat
  count  : Nat
  isOpen : Bool
  opened : Bool
  deriving DecidableEq, Repr

/-- The gate selection (R111). -/
inductive Gate where
  | bin (n : Nat)
  | overflow
  | reject
  deriving DecidableEq, Repr

/-! ### Calibration (R143, R147, R150, R154) -/

/-- The filter select: one of the six readings, or no reading (R150). -/
inductive Filter where
  | noReading
  | baseRed
  | baseGreen
  | baseBlue
  | greyRed
  | greyGreen
  | greyBlue
  deriving DecidableEq, Repr

/-- The strip record (R147), by its progress: NONE, OUT, READING, SETTLING. -/
inductive StripRecord where
  | none
  | out (surface unit : Nat) (abandoned : Bool)
  | reading (surface unit conversion : Nat) (values : List Nat)
  | settling (surface : Nat) (values : List Nat)
  deriving DecidableEq, Repr

/-- The outcome of a calibration (R154). -/
inductive CalOutcome where
  | accepted
  | failed
  | abandoned
  deriving DecidableEq, Repr

/-- Why a calibration was abandoned (R154). -/
inductive AbandonCause where
  | spoiled
  | blindCut
  | reset
  deriving DecidableEq, Repr

/-- A shop time with the clock's set flag (R154, R171). -/
structure ShopTime where
  minute : Nat
  second : Nat
  isSet  : Bool
  deriving DecidableEq, Repr

/-- One figure for each of the three channels. -/
structure Channels where
  r : Int
  g : Int
  b : Int
  deriving DecidableEq, Repr

/-- One mark for each of the three channels. -/
structure ChannelMarks where
  r : Bool
  g : Bool
  b : Bool
  deriving DecidableEq, Repr

/-- The last result of a surface (R154). -/
structure LastResult where
  outcome   : CalOutcome
  cause     : Option AbandonCause
  time      : ShopTime
  readings  : Option (List Nat)
  densities : Option Channels
  errors    : Option Channels
  steps     : Option Channels
  before    : Option Channels
  after     : Option Channels
  clamps    : ChannelMarks
  deriving DecidableEq, Repr

/-- The calibration state of one surface (R143, R154). `checkWaiting` is the model's own: a due comparison
of this surface waits on a write cycle (R144, R183). -/
structure SurfaceCal where
  counter      : Nat
  due          : Bool
  last         : Option LastResult
  checkWaiting : Bool
  deriving DecidableEq, Repr

/-! ### The link (R158, R160 to R162, R171) -/

/-- The status codes (R166's table), in the order of their values. -/
inductive Status where
  | ok
  | okClamped
  | denied
  | noOrder
  | wrongState
  | full
  | tooMany
  | badValue
  | storeBusy
  | sheetBad
  | notSetUp
  | damaged
  | notPriced
  | shortPayment
  | unknownRequest
  deriving DecidableEq, Repr

/-- An entry of the receive queue (R161). -/
structure Frame where
  broadcast : Bool
  source    : Nat
  code      : Nat
  tag       : Byte
  body      : List Byte
  deriving DecidableEq, Repr

/-- A response frame (R158, R163). -/
structure Response where
  destination : Nat
  source      : Nat
  code        : Nat
  tag         : Byte
  status      : Status
  body        : List Byte
  deriving DecidableEq, Repr

/-- What a request in progress waits for: the rights test's read of the STATIONS sheet (R170), or a sheet
read of its owning block. `damaged` says that the request's first access already found its order
DAMAGED. -/
inductive WaitStage where
  | rights
  | owner (damaged : Bool)
  deriving DecidableEq, Repr

/-- A request in progress that waits on a store write cycle (R162). `queued` is the length of the
receive queue when the request was taken, which READ_LINK reports (R172). -/
structure InProgress where
  header    : Header
  broadcast : Bool
  request   : Request
  queued    : Nat
  stage     : WaitStage
  deriving DecidableEq, Repr

/-- The Link Controller's states (R162). `thenReset` marks the response to a RESET (R166). -/
inductive LinkPhase where
  | idle
  | working (request : InProgress)
  | sending (response : Response) (thenReset : Bool)
  | resetting
  deriving DecidableEq, Repr

/-- The cause of a violation (R171). -/
inductive DenyCause where
  | notEnabled
  | noRight
  | notOwner
  | labOnly
  | sheetBad
  deriving DecidableEq, Repr

/-- The violation record (R171). -/
structure Violation where
  station   : Nat
  code      : Nat
  cause     : DenyCause
  number    : Option Nat
  sheet     : Option Nat
  broadcast : Bool
  time      : ShopTime
  deriving DecidableEq, Repr

/-! ### Notices and the store (R174, R180) -/

/-- The 13 notice kinds in priority order (R174). -/
inductive NoticeKind where
  | recordDamaged
  | storeSheetBad
  | cutterFault
  | paperOut
  | lampDip
  | feedUnderflow
  | orderFault
  | protection
  | calDue
  | calFail
  | orderLate
  | binDisturbed
  | corrections
  deriving DecidableEq, Repr

/-- The record of one notice kind (R174). -/
structure Notice where
  pending : Bool
  enable  : Bool
  count   : Nat
  detail  : Option Nat
  deriving DecidableEq, Repr

/-- The five sheets, in the order R180 lists them. -/
inductive SheetName where
  | size
  | price
  | calibration
  | stations
  | general
  deriving DecidableEq, Repr

/-- A settings sheet: 64 entries, its good or BAD state, four page-written flags and its write count
(R180). -/
structure Sheet where
  entries : List Word32
  bad     : Bool
  pages   : List Bool
  writes  : Nat
  deriving DecidableEq, Repr

/-- A running write cycle: the sheet and page it writes and the entries before the write, which a loss
of power may leave in part (R183). -/
structure WriteCycle where
  sheet  : SheetName
  page   : Nat
  before : List Word32
  deriving DecidableEq, Repr

/-- What reading a stored word through its check code finds (R177). -/
inductive Finding where
  | clean
  | corrected
  | uncorrectable
  deriving DecidableEq, Repr, Inhabited

/-- The part's supply: on, on with the reset input asserted, or off (R185). -/
inductive Power where
  | on
  | inReset
  | off
  deriving DecidableEq, Repr

end Sys2Proof.Machine
end

