-- ==== Sys2Proof/Config.lean ====
section
/-! DEFINITION. What the manual leaves open as a value, and the fixed sizes of the part. A free value is
an opaque constant with no body, applied to the model's own draw counter (`State.draws`), so that no
proof can see what it is. The log entries that declare them are named at each. -/

namespace Sys2Proof.Config

open Sys2Proof.Machine

/-! ### Fixed sizes -/

/-- The slots of the Order Table (R1). -/
abbrev slotCount : Nat := 64

/-- The records of the unit pool (R33). -/
abbrev poolSize : Nat := 512

/-- The most units an admission may leave in the queue (R36). -/
abbrev admissionLimit : Nat := 440

/-- The most units in use while a unit may be granted (R47). -/
abbrev grantLimit : Nat := 505

/-- The most units in use while a strip is accepted (R46). -/
abbrev stripLimit : Nat := 504

/-- The entries the paper train can hold (R98). -/
abbrev trainLimit : Nat := 64

/-- The frames the receive queue can hold (R161). -/
abbrev receiveLimit : Nat := 4

/-- The bytes a response body can hold (R158). -/
abbrev bodyLimit : Nat := 240

/-! ### Free values -/

/-- What a word with three or more wrong bits is found to be: "may be found any of the three ways"
(R177). Log entry 5. -/
opaque wideFinding : Nat → Finding

/-- What the words of a slot spell where they are misread: a word with three or more wrong bits was found clean or
corrected, so that the access uses a word that is not what was written (R177). None spells FREE. Log entry 5. -/
opaque misread : Nat → Option Order → Option Order

/-- The words of a slot that hold a field. The manual names the number word and the state word and gives no place
to any other field. Log entry 5. -/
opaque fieldWords : SlotField → List RecordWord

/-- Whether entry `i` of the sheet being written already held its new value when a loss of power cut the
write cycle short (R183). Log entry 6. -/
opaque entryWritten : (draw i : Nat) → Bool

/-- The seconds left on a running switch timer, which READ_ENGINE reports (R93) and which the model does
not count down. Log entry 7. -/
opaque switchSecondsLeft : (draw started : Nat) → Nat

end Sys2Proof.Config
end

