-- ==== Sys2Proof/Machine/Sheets.lean ====
section
/-! DEFINITION. The settings sheets as data (R180): the entry map, the check value, the clamp of each
field to its range (R182), the values each chapter reads, and the sheets of a new part as delivered
(R142, R167; log entry 3). -/

namespace Sys2Proof.Machine

/-! ### Halves and the check value (R180) -/

/-- The low 16 bits of an entry. -/
def lowHalf (w : Word32) : Nat := (w.extractLsb' 0 16).toNat

/-- The high 16 bits of an entry. -/
def highHalf (w : Word32) : Nat := (w.extractLsb' 16 16).toNat

/-- An entry that holds two 16-bit fields. -/
def halves (low high : Nat) : Word32 := BitVec.ofNat 16 high ++ BitVec.ofNat 16 low

/-- The check value of entries 0..62: the sum of their halves modulo 65536 (R180). -/
def checkValue (entries : List Word32) : Nat :=
  ((entries.take 63).foldl (fun sum w => sum + lowHalf w + highHalf w) 0) % 65536

/-- The entries with entry 63 holding the check value of the others. -/
def sealEntries (entries : List Word32) : List Word32 :=
  entries.set 63 (BitVec.ofNat 32 (checkValue entries))

/-- Whether entry 63 agrees with the entries before it (R184). -/
def checkAgrees (entries : List Word32) : Bool :=
  entries.getD 63 0 == BitVec.ofNat 32 (checkValue entries)

/-- One entry of a sheet. -/
def Sheet.entry (sheet : Sheet) (i : Nat) : Word32 := sheet.entries.getD i 0

/-- One entry of a sheet as an unsigned number. -/
def Sheet.value (sheet : Sheet) (i : Nat) : Nat := (sheet.entry i).toNat

/-- One entry of a sheet as a signed number (R180: two's complement). -/
def Sheet.signed (sheet : Sheet) (i : Nat) : Int := (sheet.entry i).toInt

/-! ### Clamping written values (R182) -/

/-- A value clamped to a range, with whether the clamp acted. -/
def clampTo (low high : Nat) (w : Word32) : Word32 × Bool :=
  if w.toNat < low then (BitVec.ofNat 32 low, true)
  else if high < w.toNat then (BitVec.ofNat 32 high, true)
  else (w, false)

/-- A signed value clamped to a range (R182), with whether the clamp acted. -/
def clampSigned (low high : Int) (w : Word32) : Word32 × Bool :=
  if w.toInt < low then (BitVec.ofInt 32 low, true)
  else if high < w.toInt then (BitVec.ofInt 32 high, true)
  else (w, false)

/-- The print length field: 0, or 1000..12000; 1..999 becomes 1000 (R182). -/
def clampPrintLength (w : Word32) : Word32 × Bool :=
  if w = 0 then (w, false) else clampTo 1000 12000 w

/-- The roll widths a SIZE entry can hold (R180). -/
def rollWidths : List Nat := [89, 102, 127, 152, 203, 254, 305]

/-- The roll width field: the listed width at or below the value, the lowest listed width for a value
below it (R182). -/
def clampWidth (w : Word32) : Word32 × Bool :=
  let width := (rollWidths.filter (· ≤ w.toNat)).getLastD 89
  (BitVec.ofNat 32 width, width != w.toNat)

/-- The STATIONS entry: every field clamped to its last listed value, unused bits stored as 0 without
counting as a clamp (R180, R182). Only settings access has a code above its last value. -/
def clampStation (w : Word32) : Word32 × Bool :=
  let settings := (w.extractLsb' 3 2).toNat
  let kept := w &&& 0x67#32
  (kept ||| BitVec.ofNat 32 (min settings 2 * 8), decide (2 < settings))

/-- The PRICE tier entries: the low half holds a price of any 16 bits, the high half a threshold clamped
to 400. -/
def clampTier (w : Word32) : Word32 × Bool :=
  (halves (lowHalf w) (min (highHalf w) 400), decide (400 < highHalf w))

/-- The SIZE sheet's field at an entry. -/
def clampSize (i : Nat) (w : Word32) : Word32 × Bool :=
  if 48 ≤ i then (w, false)
  else if i % 3 = 0 then clampPrintLength w
  else if i % 3 = 1 then clampTo 0 400 w
  else clampWidth w

/-- The PRICE sheet's field at an entry; the high half of a U2 entry is stored as 0 without counting as
a clamp. -/
def clampPrice (i : Nat) (w : Word32) : Word32 × Bool :=
  if i < 48 then
    if i % 3 = 2 then (halves (lowHalf w) 0, false) else clampTier w
  else if i < 52 then clampTo 0 999 w
  else if i < 54 then clampTo 0 100 w
  else if i = 54 then clampTo 0 99999 w
  else (w, false)

/-- The CALIBRATION sheet's field at an entry. -/
def clampCalibration (i : Nat) (w : Word32) : Word32 × Bool :=
  if i < 12 then clampTo 200 8000 w
  else if i < 16 then (w, false)
  else if i < 28 then clampSigned (-40) 40 w
  else if i < 32 then (w, false)
  else if i < 44 then clampTo 0 400 w
  else if i < 48 then clampTo 0 4000 w
  else if i < 52 then clampTo 0 1 w
  else if i = 52 then clampTo 1024 2047 w
  else if i = 53 then clampTo 1 255 w
  else if i = 54 then clampTo 1 20 w
  else if i = 55 then clampTo 10 200 w
  else if i = 56 then clampTo 0 10 w
  else (w, false)

/-- The ranges of GENERAL entries 0..11, in the order of R180's map. -/
def generalRanges : List (Nat × Nat) :=
  [(0, 255), (1, 16), (4, 255), (20000, 200000), (10, 99), (1, 32), (1, 60), (5, 60),
   (200, 5000), (1, 255), (1, 254), (1, 31)]

/-- The GENERAL sheet's field at an entry. -/
def clampGeneral (i : Nat) (w : Word32) : Word32 × Bool :=
  match generalRanges[i]? with
  | some (low, high) => clampTo low high w
  | none => (w, false)

/-- The field of a sheet's entry clamped to its range, with whether a clamp acted; a spare entry takes
its value unchanged (R182). -/
def clampEntry (name : SheetName) (i : Nat) (w : Word32) : Word32 × Bool :=
  match name with
  | .size => clampSize i w
  | .price => clampPrice i w
  | .calibration => clampCalibration i w
  | .stations => if i < 31 then clampStation w else (w, false)
  | .general => clampGeneral i w

/-! ### The entry map (R180) -/

/-- The SIZE sheet's figures of a size code: print length, border lines and roll width. -/
def Sheet.printLength (size : Sheet) (s : Nat) : Nat := size.value (3 * s)
def Sheet.borderLines (size : Sheet) (s : Nat) : Nat := size.value (3 * s + 1)
def Sheet.rollWidth (size : Sheet) (s : Nat) : Nat := size.value (3 * s + 2)

/-- The CALIBRATION sheet's figures of a surface and channel (0 red, 1 green, 2 blue). -/
def Sheet.baseTime (cal : Sheet) (u c : Nat) : Nat := cal.value (3 * u + c)
def Sheet.labBalance (cal : Sheet) (u c : Nat) : Int := cal.signed (16 + 3 * u + c)
def Sheet.aimDensity (cal : Sheet) (u c : Nat) : Nat := cal.value (32 + 3 * u + c)
def Sheet.interval (cal : Sheet) (u : Nat) : Nat := cal.value (44 + u)
def Sheet.strict (cal : Sheet) (u : Nat) : Bool := cal.value (48 + u) != 0
def Sheet.lampFactor (cal : Sheet) : Nat := cal.value 52
def Sheet.gain (cal : Sheet) : Nat := cal.value 53
def Sheet.slope (cal : Sheet) : Nat := cal.value 54
def Sheet.tolerance (cal : Sheet) : Nat := cal.value 55
def Sheet.deadBand (cal : Sheet) : Nat := cal.value 56

/-- The defaults of the GENERAL sheet's entries 0..11, which each reader uses while the sheet is BAD
(R184). -/
def generalDefaults : List Nat := [40, 8, 40, 90000, 50, 6, 10, 20, 1000, 16, 64, 1]

/-- A figure of the GENERAL sheet, or its default while the sheet is BAD (R184). -/
def Sheet.generalFigure (general : Sheet) (i : Nat) : Nat :=
  if general.bad then generalDefaults.getD i 0 else general.value i

def Sheet.leadGap (general : Sheet) : Nat := general.generalFigure 0
def Sheet.markLines (general : Sheet) : Nat := general.generalFigure 1
def Sheet.markWindow (general : Sheet) : Nat := general.generalFigure 2
def Sheet.transitLength (general : Sheet) : Nat := general.generalFigure 3
def Sheet.binCapacity (general : Sheet) : Nat := general.generalFigure 4
def Sheet.starvationLimit (general : Sheet) : Nat := general.generalFigure 5
def Sheet.draftTimeout (general : Sheet) : Nat := general.generalFigure 6
def Sheet.switchTime (general : Sheet) : Nat := general.generalFigure 7
def Sheet.reserve (general : Sheet) : Nat := general.generalFigure 8
def Sheet.correctionThreshold (general : Sheet) : Nat := general.generalFigure 9
def Sheet.linkAddressDefault (general : Sheet) : Nat := general.generalFigure 10
def Sheet.labStationDefault (general : Sheet) : Nat := general.generalFigure 11

/-! ### The sheets of a new part (log entry 3) -/

/-- A good sheet with the given entries 0..62, write count 0 and no page written. -/
def deliveredSheet (entries : List Word32) : Sheet :=
  { entries := sealEntries (entries ++ [0]), bad := false
    pages := [false, false, false, false], writes := 0 }

/-- SIZE as delivered: no size in use (print length 0), no borders, the lowest listed roll width. -/
def deliveredSize : Sheet :=
  deliveredSheet ((List.replicate 16 [0, 0, 89]).flatten ++ List.replicate 15 0)

/-- PRICE as delivered: every figure 0. -/
def deliveredPrice : Sheet := deliveredSheet (List.replicate 63 0)

/-- CALIBRATION as delivered: the Default column of section 9.1 (R142). -/
def deliveredCalibration : Sheet :=
  deliveredSheet (List.replicate 12 2400 ++ List.replicate 4 0 ++ List.replicate 16 0
    ++ List.replicate 12 70 ++ List.replicate 4 1000 ++ List.replicate 4 0
    ++ [1024, 52, 3, 40, 2] ++ List.replicate 6 0)

/-- STATIONS as delivered: the Default column of section 10.8, no station enabled. -/
def deliveredStations : Sheet := deliveredSheet (List.replicate 63 0)

/-- GENERAL as delivered: the defaults of its figures. -/
def deliveredGeneral : Sheet :=
  deliveredSheet (generalDefaults.map (BitVec.ofNat 32) ++ List.replicate 51 0)

end Sys2Proof.Machine
end

