-- ==== Sys2Proof/Machine/State.lean ====
section
/-! DEFINITION. The state of the OP-24 as plain data, one structure for each block of 1.3, the reasons a
step can stop, and the state after reset. The record types are in Records.lean. -/

namespace Sys2Proof.Machine

/-- The Order Table (R1, R4, R11, R13). `draftCheckDue` and `trialDue` are the model's own: a comparison
of the draft idle seconds, and a held trial, that an event has called for and that is not made yet. -/
structure OrderTable where
  slots         : List (Option Order)
  nextNumber    : Nat
  heldList      : List Nat
  discarded     : Nat
  draftCheckDue : Bool
  trialDue      : Bool
  deriving DecidableEq, Repr

/-- The Shop Clock (R28). `minuteDue` is the model's own: a minute event follows and is not taken yet. -/
structure ShopClock where
  minute    : Nat
  second    : Nat
  isSet     : Bool
  minuteDue : Bool
  deriving DecidableEq, Repr

/-- The Record Memory (R177): the wrong bits its words hold, the correction count and the copy of the
correction threshold. -/
structure RecordMemory where
  upsets      : List Upset
  corrections : Nat
  threshold   : Nat
  deriving DecidableEq, Repr

/-- The Exposure Queue (R33 to R37, R50). `signal` is the model's own: the queue has signalled an IDLE
engine in this step (R48). -/
structure ExposureQueue where
  pool      : List (Option PrintUnit)
  strip     : List Nat
  rush      : List Nat
  standard  : List Nat
  figures   : List (Option FigureEntry)
  runCount  : Nat
  heldCause : Option HeldCause
  signal    : Bool
  deriving DecidableEq, Repr

/-- The Exposure Engine (R70). `awaitingSettings`, `selectionWaiting` and `switchWaiting` say that a unit
start, a selection and the switch-time read wait on a write cycle; `head`, `advances` and `actuator` are
its output lines (1.5); `lampIsLow` is the comparator level (R93). -/
structure Engine where
  state            : EngineState
  phase            : Option Phase
  current          : Option Nat
  handle           : Word32
  line             : Nat
  holds            : HoldSet
  selectPending    : Bool
  switchTimer      : Option Nat
  buffer1          : LineBuffer
  buffer2          : LineBuffer
  firstLineTimer   : Bool
  lampTimer        : Bool
  lampIsLow        : Bool
  lut0             : LutBank
  lut1             : LutBank
  activeBank       : Fin 2
  swapPending      : Bool
  magA             : MagazineRecord
  magB             : MagazineRecord
  active           : Magazine
  discardedLines   : Nat
  awaitingSettings : Bool
  selectionWaiting : Bool
  switchWaiting    : Bool
  head             : HeadOutput
  actuator         : Magazine
  advances         : Nat
  deriving DecidableEq, Repr

/-- The Transit Tracker (R96 to R100, R104). `cutterCommands` counts the pulses of the cutter command line,
an output. -/
structure Transit where
  path             : Word32
  train            : List TrainEntry
  consecutiveBlind : Nat
  strayMarks       : Nat
  blindCuts        : Nat
  waitingMarks     : List Word32
  cutterCommands   : Nat
  deriving DecidableEq, Repr

/-- The Sorter (R111, R112). -/
structure Sorter where
  bins      : List Bin
  overflow  : Nat
  reject    : Nat
  unclaimed : Nat
  capacity  : Nat
  gate      : Gate
  deriving DecidableEq, Repr

/-- The Calibration Unit (R143, R147, R150). -/
structure CalibrationUnit where
  surfaces : List SurfaceCal
  strip    : StripRecord
  filter   : Filter
  deriving DecidableEq, Repr

/-- The Link Controller (R156, R160 to R162, R165, R171). `inFrame` is the receiver's state, HUNT or
IN_FRAME. -/
structure LinkController where
  setUp             : Bool
  address           : Nat
  lab               : Option Nat
  inFrame           : Bool
  queue             : List Frame
  phase             : LinkPhase
  violation         : Option Violation
  violationOverflow : Nat
  badForm           : Nat
  badCheck          : Nat
  badSource         : Nat
  overrun           : Nat
  deriving DecidableEq, Repr

/-- The Notice Unit (R174). The notice line is computed from it (R175). -/
structure NoticeUnit where
  kinds : List Notice
  deriving DecidableEq, Repr

/-- The Settings Store (R180, R183). -/
structure SettingsStore where
  size        : Sheet
  price       : Sheet
  calibration : Sheet
  stations    : Sheet
  general     : Sheet
  cycle       : Option WriteCycle
  deriving DecidableEq, Repr

/-- The whole part, with its supply, the model's draw counter for free values, and the commands that are
waiting, first in, first out. -/
structure State where
  power   : Power
  orders  : OrderTable
  clock   : ShopClock
  memory  : RecordMemory
  queue   : ExposureQueue
  engine  : Engine
  transit : Transit
  sorter  : Sorter
  cal     : CalibrationUnit
  link    : LinkController
  notices : NoticeUnit
  store   : SettingsStore
  draws   : Nat
  pending : List Instr
  deriving DecidableEq, Repr

/-- The reasons a step stops with a fault: none. Every rule of the manual gives its command an effect, and
an event that cannot arise in the present state has none (log entry 1), so no meaning raises a fault.
Safe: the machine never stops where the part goes on. -/
inductive Fault where
  deriving DecidableEq, Repr

/-- The reasons a command has no meaning. -/
inductive Refusal where
  /-- The command's arm of `exec` gives it no meaning yet; raised by `exec` alone, for no command now.
  Safe: the machine stops. -/
  | notModelled (mnemonic : String)
  deriving DecidableEq, Repr

/-! ### The state after reset -/

/-- The Order Table after a cold start (R31). -/
def OrderTable.reset : OrderTable :=
  { slots := List.replicate Config.slotCount none, nextNumber := 1, heldList := []
    discarded := 0, draftCheckDue := false, trialDue := false }

/-- The Shop Clock after a cold or retained start (R28). -/
def ShopClock.reset : ShopClock := { minute := 0, second := 0, isSet := false, minuteDue := false }

/-- The Exposure Queue after a cold start (R53). -/
def ExposureQueue.reset : ExposureQueue :=
  { pool := List.replicate Config.poolSize none, strip := [], rush := [], standard := []
    figures := List.replicate Config.slotCount none, runCount := 0, heldCause := none
    signal := false }

/-- A LUT table after a cold start: level = code times 4 (R90). -/
def LutBank.resetTable : List Nat := (List.range 256).map (· * 4)

/-- A LUT bank after a cold start (R90). -/
def LutBank.reset : LutBank :=
  { red := LutBank.resetTable, green := LutBank.resetTable, blue := LutBank.resetTable }

/-- A magazine sensed absent, with no paper counted (R80, R94). -/
def MagazineRecord.absent : MagazineRecord :=
  { present := false, width := none, surface := none, remaining := 0, paperEnd := false }

/-- The hold-reason set with LAB_HALT alone (R94). -/
def HoldSet.labHaltOnly : HoldSet :=
  { labHalt := true, cutterFault := false, lampLow := false, trainFull := false, sheetBad := false }

/-- The Exposure Engine after a cold start with both magazines absent and the lamp supply up (R94). -/
def Engine.reset : Engine :=
  { state := .held, phase := none, current := none, handle := 0, line := 0
    holds := HoldSet.labHaltOnly, selectPending := false, switchTimer := none
    buffer1 := .empty, buffer2 := .empty, firstLineTimer := false
    lampTimer := false, lampIsLow := false
    lut0 := LutBank.reset, lut1 := LutBank.reset, activeBank := 0, swapPending := false
    magA := MagazineRecord.absent, magB := MagazineRecord.absent, active := .a
    discardedLines := 0
    awaitingSettings := false, selectionWaiting := false, switchWaiting := false
    head := .unlit, actuator := .a, advances := 0 }

/-- The Transit Tracker after a cold start (R96). -/
def Transit.reset : Transit :=
  { path := 0, train := [], consecutiveBlind := 0, strayMarks := 0, blindCuts := 0
    waitingMarks := [], cutterCommands := 0 }

/-- A bin FREE with its door CLOSED (R128). -/
def Bin.reset : Bin :=
  { state := .free, number := none, slot := none, count := 0, isOpen := false, opened := false }

/-- The Sorter after a cold start with every door sensed CLOSED and the capacity of the GENERAL sheet as
delivered (R112, R128). -/
def Sorter.reset : Sorter :=
  { bins := List.replicate 24 Bin.reset, overflow := 0, reject := 0, unclaimed := 0
    capacity := 50, gate := .reject }

/-- The Calibration Unit after a cold start (R155). -/
def CalibrationUnit.reset : CalibrationUnit :=
  { surfaces := List.replicate 4 { counter := 0, due := false, last := none, checkWaiting := false }
    strip := .none, filter := .noReading }

/-- The Link Controller after a cold or retained start (R173); F0 hex is 240. -/
def LinkController.reset : LinkController :=
  { setUp := false, address := 0xF0, lab := none, inFrame := false, queue := [], phase := .idle
    violation := none, violationOverflow := 0, badForm := 0, badCheck := 0, badSource := 0
    overrun := 0 }

/-- The Notice Unit after a cold or retained start: nothing pending, every kind enabled (R185). -/
def NoticeUnit.reset : NoticeUnit :=
  { kinds := List.replicate 13 { pending := false, enable := true, count := 0, detail := none } }

/-- The Settings Store of a new part, every sheet good and no write cycle (R185; log entry 3). -/
def SettingsStore.reset : SettingsStore :=
  { size := deliveredSize, price := deliveredPrice, calibration := deliveredCalibration
    stations := deliveredStations, general := deliveredGeneral, cycle := none }

/-- The part right after reset: a new part after its first cold start (R185), with both magazines and the
lamp-low level sensed inactive and every bin door CLOSED (log entries 3 and 4). -/
def State.reset : State :=
  { power := .on, orders := OrderTable.reset, clock := ShopClock.reset
    memory := { upsets := [], corrections := 0, threshold := 16 }
    queue := ExposureQueue.reset, engine := Engine.reset, transit := Transit.reset
    sorter := Sorter.reset, cal := CalibrationUnit.reset, link := LinkController.reset
    notices := NoticeUnit.reset, store := SettingsStore.reset, draws := 0, pending := [] }

end Sys2Proof.Machine
end

