-- ==== Sys2Proof/Machine/Ops.lean ====
section
/-! DEFINITION. The named operations over the part's storage: slots, unit records, queue sections,
magazines and the free-value counter. Taking an exception has no counterpart in this block: a fault of
the print path is a notice and a hold reason (Flags.lean). -/

namespace Sys2Proof.Machine

/-- A saturating counter's rise by 1 (1.8). -/
def satUp (n limit : Nat) : Nat := min (n + 1) limit

/-! ### Order slots (R1) -/

/-- The order in a slot; none for a FREE slot. -/
def State.order? (s : State) (i : Nat) : Option Order := s.orders.slots.getD i none

/-- The slot holds the order given. -/
def State.setOrder (s : State) (i : Nat) (o : Order) : State :=
  { s with orders := { s.orders with slots := s.orders.slots.set i (some o) } }

/-- A live slot's order is changed; a FREE slot stays FREE. -/
def State.modifyOrder (s : State) (i : Nat) (f : Order → Order) : State :=
  match s.order? i with
  | some o => s.setOrder i (f o)
  | none => s

/-- The slots from 0 up (R1). -/
def slotIndexes : List Nat := List.range Config.slotCount

/-- The live slot that holds an order number, if any; a number that reads 0 is held by none (R4, R5). -/
def State.findOrder (s : State) (number : Nat) : Option Nat :=
  if number = 0 then none
  else s.orders.slots.findIdx? fun slot => slot.any fun o => o.number == number

/-- Whether a slot is DAMAGED (R25). -/
def State.slotDamaged (s : State) (i : Nat) : Bool :=
  (s.order? i).any fun o => o.state == .damaged

/-- A slot is freed: all its fields go, its words are written whole (R24, R178), and its figures entry is
removed (R34). -/
def State.freeSlot (s : State) (i : Nat) : State :=
  { s with
    orders := { s.orders with slots := s.orders.slots.set i none }
    memory := { s.memory with upsets := s.memory.upsets.filter fun u => u.slot != i }
    queue := { s.queue with figures := s.queue.figures.set i none } }

/-- Requested R: the sum of the lines' quantities (R2). -/
def totalQuantity (lines : List Line) : Nat := (lines.map Line.quantity).sum

/-! ### The unit pool (R32, R33) -/

/-- The length of a unit: G + P + M (R32). -/
def PrintUnit.length (u : PrintUnit) : Nat := u.lead + u.print + u.mark

/-- The record of a unit id; none when the record is FREE. -/
def State.unit? (s : State) (id : Nat) : Option PrintUnit := s.queue.pool.getD id none

/-- A unit record is written. -/
def State.setUnit (s : State) (id : Nat) (u : PrintUnit) : State :=
  { s with queue := { s.queue with pool := s.queue.pool.set id (some u) } }

/-- A unit record in use is changed. -/
def State.modifyUnit (s : State) (id : Nat) (f : PrintUnit → PrintUnit) : State :=
  match s.unit? id with
  | some u => s.setUnit id (f u)
  | none => s

/-- The Exposure Queue signals an IDLE engine (R48); the engine answers at the end of the step. -/
def State.signal (s : State) : State := { s with queue := { s.queue with signal := true } }

/-- A unit record is returned to the pool (R33), which signals the engine (R48). -/
def State.releaseUnit (s : State) (id : Nat) : State :=
  { s with queue := { s.queue with pool := s.queue.pool.set id none, signal := true } }

/-- Several records are returned. -/
def State.releaseUnits (s : State) (ids : List Nat) : State := ids.foldl State.releaseUnit s

/-- A unit is made in the lowest-numbered FREE record (R33). With no FREE record, which the bound of R33
excludes, nothing is made. -/
def State.makeUnit (s : State) (u : PrintUnit) : Option Nat × State :=
  match s.queue.pool.findIdx? Option.isNone with
  | some id => (some id, s.setUnit id u)
  | none => (none, s)

/-- Units made together, in ascending free records in the order given (R33). -/
def State.makeUnits (s : State) : List PrintUnit → List Nat × State
  | [] => ([], s)
  | u :: rest =>
    match s.makeUnit u with
    | (some id, s1) =>
      let (ids, s2) := s1.makeUnits rest
      (id :: ids, s2)
    | (none, s1) => s1.makeUnits rest

/-- Whether a unit belongs to the order of a slot and number (R32). -/
def PrintUnit.isOf (u : PrintUnit) (slot number : Nat) : Bool :=
  u.slot == some slot && u.number == some number

/-- The order of a unit: the order in its slot while that slot holds its number (R32). -/
def State.unitOrder (s : State) (u : PrintUnit) : Option Order :=
  match u.slot with
  | none => none
  | some i => (s.order? i).filter fun o => u.number == some o.number

/-- The order of a unit when it is not DAMAGED. -/
def State.soundOrder (s : State) (u : PrintUnit) : Option Order :=
  (s.unitOrder u).filter fun o => o.state != .damaged

/-- Whether the slot of a unit is DAMAGED. -/
def State.unitDamaged (s : State) (u : PrintUnit) : Bool :=
  match u.slot with
  | none => false
  | some i => s.slotDamaged i

/-! ### The queue (R35) -/

/-- The units of the queue in order: strip, RUSH, STANDARD (R35). -/
def ExposureQueue.ids (q : ExposureQueue) : List Nat := q.strip ++ q.rush ++ q.standard

/-- The queue count (R35). -/
def State.queueCount (s : State) : Nat := s.queue.ids.length

/-- The units in flight: in the engine and on the train (1.7). -/
def State.inFlight (s : State) : List Nat :=
  s.transit.train.map TrainEntry.unit ++ s.engine.current.toList

/-- The units in use (R33, R52). -/
def State.unitsInUse (s : State) : Nat := s.queueCount + s.inFlight.length

/-- Units join the tail of a class's section (R36); joining signals the engine (R48). -/
def State.joinTail (s : State) (cls : OrderClass) (ids : List Nat) : State :=
  match cls with
  | .rush => { s with queue := { s.queue with rush := s.queue.rush ++ ids, signal := true } }
  | .standard =>
    { s with queue := { s.queue with standard := s.queue.standard ++ ids, signal := true } }

/-- Units are placed at positions 1 onward of a class's section (R38, R40, R41). -/
def State.joinHead (s : State) (cls : OrderClass) (ids : List Nat) : State :=
  match cls with
  | .rush => { s with queue := { s.queue with rush := ids ++ s.queue.rush, signal := true } }
  | .standard =>
    { s with queue := { s.queue with standard := ids ++ s.queue.standard, signal := true } }

/-- Units are taken out of whichever section holds them; the units behind move up (R35). -/
def State.leaveQueue (s : State) (ids : List Nat) : State :=
  let keep := fun (l : List Nat) => l.filter fun id => !ids.contains id
  { s with queue := { s.queue with
      strip := keep s.queue.strip, rush := keep s.queue.rush, standard := keep s.queue.standard } }

/-- A held trial is owed: the number of queued units fell, or the head order left the held list (R13). -/
def State.oweTrial (s : State) : State := { s with orders := { s.orders with trialDue := true } }

/-- The queued units that satisfy a test on their records. -/
def State.queuedWhere (s : State) (test : PrintUnit → Bool) : List Nat :=
  s.queue.ids.filter fun id => (s.unit? id).any test

/-- Queued units are removed and their records returned, which owes a held trial (R42, R43, R179). -/
def State.removeQueued (s : State) (ids : List Nat) : State :=
  if ids.isEmpty then s else ((s.leaveQueue ids).releaseUnits ids).oweTrial

/-- The figures entry of a slot (R34). -/
def State.figures? (s : State) (i : Nat) : Option FigureEntry := s.queue.figures.getD i none

/-- The figures entry of a slot is written or removed (R34). -/
def State.setFigures (s : State) (i : Nat) (e : Option FigureEntry) : State :=
  { s with queue := { s.queue with figures := s.queue.figures.set i e } }

/-- An order leaves the held list; when it was the head a held trial is owed, and when the list becomes
empty the held cause is cleared (R13, R37). -/
def State.leaveHeldList (s : State) (i : Nat) : State :=
  if s.orders.heldList.contains i then
    let rest := s.orders.heldList.erase i
    { s with
      orders := { s.orders with
        heldList := rest
        trialDue := s.orders.trialDue || s.orders.heldList.head? == some i }
      queue := { s.queue with heldCause := if rest.isEmpty then none else s.queue.heldCause } }
  else s

/-! ### Magazines, the clock, the store -/

/-- A magazine's record (R80). -/
def Engine.mag (e : Engine) : Magazine → MagazineRecord
  | .a => e.magA
  | .b => e.magB

/-- A magazine's record is changed, which signals the Exposure Queue (R80). -/
def State.setMag (s : State) (m : Magazine) (r : MagazineRecord) : State :=
  match m with
  | .a => { s with engine := { s.engine with magA := r }, queue := { s.queue with signal := true } }
  | .b => { s with engine := { s.engine with magB := r }, queue := { s.queue with signal := true } }

/-- The present shop time with the clock's set flag (R154, R171). -/
def State.shopTime (s : State) : ShopTime :=
  { minute := s.clock.minute, second := s.clock.second, isSet := s.clock.isSet }

/-- Whether a store write cycle is running (R183). -/
def State.cycleRuns (s : State) : Bool := s.store.cycle.isSome

/-- A sheet of the store. -/
def SettingsStore.sheet (st : SettingsStore) : SheetName → Sheet
  | .size => st.size
  | .price => st.price
  | .calibration => st.calibration
  | .stations => st.stations
  | .general => st.general

/-- A sheet of the store is replaced. -/
def SettingsStore.setSheet (st : SettingsStore) (name : SheetName) (sheet : Sheet) : SettingsStore :=
  match name with
  | .size => { st with size := sheet }
  | .price => { st with price := sheet }
  | .calibration => { st with calibration := sheet }
  | .stations => { st with stations := sheet }
  | .general => { st with general := sheet }

/-- One free value has been drawn: the counter moves on, so that the next is another. -/
def State.drawn (s : State) : State := { s with draws := s.draws + 1 }

/-- The calibration state of a surface. -/
def State.surface (s : State) (u : Nat) : SurfaceCal :=
  s.cal.surfaces.getD u { counter := 0, due := false, last := none, checkWaiting := false }

/-- The calibration state of a surface is written. -/
def State.setSurface (s : State) (u : Nat) (r : SurfaceCal) : State :=
  { s with cal := { s.cal with surfaces := s.cal.surfaces.set u r } }

/-- The record of bin `n`, 1..24. -/
def State.bin (s : State) (n : Nat) : Bin := s.sorter.bins.getD (n - 1) Bin.reset

/-- The record of bin `n`, 1..24, is written. -/
def State.setBin (s : State) (n : Nat) (b : Bin) : State :=
  { s with sorter := { s.sorter with bins := s.sorter.bins.set (n - 1) b } }

end Sys2Proof.Machine
end

