-- ==== Sys2Proof/Machine/Flags.lean ====
section
/-! DEFINITION. The flags of the part: the notice kinds with the notice line and the reported code (R174,
R175), and the members of the hold-reason set (R72). -/

namespace Sys2Proof.Machine

/-- A kind's place in the list of 13, its code less 1 (R174). -/
def NoticeKind.index : NoticeKind → Nat
  | .recordDamaged => 0
  | .storeSheetBad => 1
  | .cutterFault => 2
  | .paperOut => 3
  | .lampDip => 4
  | .feedUnderflow => 5
  | .orderFault => 6
  | .protection => 7
  | .calDue => 8
  | .calFail => 9
  | .orderLate => 10
  | .binDisturbed => 11
  | .corrections => 12

/-- A raising of a kind: pending set, count up by 1 and saturating at 255, detail replaced (R174). -/
def Notice.raised (n : Notice) (detail : Nat) : Notice :=
  { n with pending := true, count := satUp n.count 255, detail := some detail }

/-- A kind cleared: pending, count and detail go, the enable stays (R176). -/
def Notice.cleared (n : Notice) : Notice :=
  { n with pending := false, count := 0, detail := none }

/-- A block raises a notice kind (R174). -/
def State.raise (s : State) (kind : NoticeKind) (detail : Nat) : State :=
  { s with notices := { kinds := s.notices.kinds.modify kind.index fun n => n.raised detail } }

/-- Whether the notice line is asserted (R175). -/
def NoticeUnit.line (n : NoticeUnit) : Bool := n.kinds.any fun k => k.pending && k.enable

/-- The reported notice code: the highest-priority kind both pending and enabled, 0 when there is none
(R175). -/
def NoticeUnit.code (n : NoticeUnit) : Nat :=
  match n.kinds.findIdx? fun k => k.pending && k.enable with
  | some i => i + 1
  | none => 0

/-- A hold reason (R72). -/
inductive HoldReason where
  | labHalt
  | cutterFault
  | lampLow
  | trainFull
  | sheetBad
  deriving DecidableEq, Repr

/-- Whether the set holds a reason. -/
def HoldSet.has (h : HoldSet) : HoldReason → Bool
  | .labHalt => h.labHalt
  | .cutterFault => h.cutterFault
  | .lampLow => h.lampLow
  | .trainFull => h.trainFull
  | .sheetBad => h.sheetBad

/-- The set with a reason present or absent. -/
def HoldSet.put (h : HoldSet) (reason : HoldReason) (present : Bool) : HoldSet :=
  match reason with
  | .labHalt => { h with labHalt := present }
  | .cutterFault => { h with cutterFault := present }
  | .lampLow => { h with lampLow := present }
  | .trainFull => { h with trainFull := present }
  | .sheetBad => { h with sheetBad := present }

/-- Whether the set is empty. -/
def HoldSet.isEmpty (h : HoldSet) : Bool :=
  !(h.labHalt || h.cutterFault || h.lampLow || h.trainFull || h.sheetBad)

/-- The set as a mask, bit 0 for the first member R70 lists (R158). -/
def HoldSet.mask (h : HoldSet) : Nat :=
  h.labHalt.toNat + 2 * h.cutterFault.toNat + 4 * h.lampLow.toNat + 8 * h.trainFull.toNat
    + 16 * h.sheetBad.toNat

/-- A reason is added (R72). An IDLE engine enters HELD at once, and a selection then waiting on a write
cycle is abandoned (R71). -/
def State.addHold (s : State) (reason : HoldReason) : State :=
  let e := { s.engine with holds := s.engine.holds.put reason true }
  { s with engine :=
      match e.state with
      | .idle => { e with state := .held, selectionWaiting := false }
      | _ => e }

end Sys2Proof.Machine
end

