-- ==== Sys2Proof/Machine/RecordMemory.lean ====
section
/-! DEFINITION. The Record Memory: reading a slot's words through the check code, corrections and damage
(R177, R178), and the walk of a retained start (R185). -/

namespace Sys2Proof.Machine

/-- What the check code finds in a word with some wrong bits: one is corrected, two are uncorrectable,
three or more may be found any of the three ways (R177, log entry 5). -/
def upsetFinding (u : Upset) (draw : Nat) : Finding :=
  match u.bits with
  | 0 => .clean
  | 1 => .corrected
  | 2 => .uncorrectable
  | _ => Config.wideFinding draw

/-- One word of slot `i` is corrected: the count rises, and CORRECTIONS is raised when it reaches a
multiple of the threshold; a count held at 65535 does neither (R177). -/
def State.countCorrection (s : State) (i : Nat) : State :=
  if s.memory.corrections < 65535 then
    let n := s.memory.corrections + 1
    let s1 := { s with memory := { s.memory with corrections := n } }
    if n % s.memory.threshold = 0 then s1.raise .corrections i else s1
  else s

/-- What an access to a slot has found so far: an uncorrectable word, whether the number word is one, and
the words that are used with a value that was not written. -/
structure AccessFinding where
  damaged    : Bool
  numberLost : Bool
  misread    : List RecordWord
  deriving DecidableEq, Repr

/-- An access that has found every word clean so far. -/
def AccessFinding.clean : AccessFinding := { damaged := false, numberLost := false, misread := [] }

/-- An upset joins the words found wrong so far: its wrong bits add to those of its word (log entry 31). -/
def addUpset (u : Upset) : List Upset → List Upset
  | [] => [u]
  | v :: rest =>
    if v.slot = u.slot ∧ v.word = u.word then { v with bits := v.bits + u.bits } :: rest
    else v :: addUpset u rest

/-- The wrong words that some upsets make, one entry a word with all its wrong bits (R177). -/
def wrongWords (us : List Upset) : List Upset := us.foldl (fun words u => addUpset u words) []

/-- The wrong words of slot `i` are read one after another (R177). -/
def readWords (i : Nat) : List Upset → AccessFinding × State → AccessFinding × State
  | [], acc => acc
  | u :: rest, (f, s) =>
    let wide := decide (3 ≤ u.bits)
    let s1 := if wide then s.drawn else s
    let used := if wide then { f with misread := u.word :: f.misread } else f
    let next :=
      match upsetFinding u s.draws with
      | .clean => (used, s1)
      | .corrected => (used, s1.countCorrection i)
      | .uncorrectable =>
        ({ f with damaged := true, numberLost := f.numberLost || decide (u.word = .number) }, s1)
    readWords i rest next

/-- The slot's wrong words have been corrected or read as they stand. -/
def State.dropUpsets (s : State) (drop : Upset → Bool) : State :=
  { s with memory := { s.memory with upsets := s.memory.upsets.filter fun u => !drop u } }

/-- A slot becomes DAMAGED at an access: its number is kept or reads 0, RECORD_DAMAGED is raised, and a
HELD order leaves the held list (R25, R178). -/
def State.damageSlot (s : State) (i : Nat) (o : Order) (numberLost : Bool) : State :=
  ((s.setOrder i { o with
      state := .damaged, number := if numberLost then 0 else o.number }).raise .recordDamaged i
    ).leaveHeldList i

/-- A field of a slot as an access uses it: what the words spell when one of its words is misread, and what was
written otherwise (log entry 5). -/
def SlotField.value {α : Type} (f : SlotField) (misread : List RecordWord) (spelled written : α) : α :=
  if (Config.fieldWords f).any misread.contains then spelled else written

/-- A live slot as an access uses it, some of its words misread: the fields of those words are as spelled, and every
field of clean and corrected words is as written (R177, log entry 5). -/
def misreadOrder (misread : List RecordWord) (spelled o : Order) : Order :=
  { number := if misread.contains .number then spelled.number else o.number
    state := if misread.contains .state then spelled.state else o.state
    owner := SlotField.owner.value misread spelled.owner o.owner
    tag := SlotField.tag.value misread spelled.tag o.tag
    cls := SlotField.cls.value misread spelled.cls o.cls
    queueClass := SlotField.queueClass.value misread spelled.queueClass o.queueClass
    promised := SlotField.promised.value misread spelled.promised o.promised
    lines := (List.range (SlotField.lineCount.value misread spelled.lines.length o.lines.length)).filterMap
      fun k => (SlotField.line k).value misread (spelled.lines[k]?.or o.lines[k]?)
        (o.lines[k]?.or spelled.lines[k]?)
    requested := SlotField.requested.value misread spelled.requested o.requested
    delivered := SlotField.delivered.value misread spelled.delivered o.delivered
    outstanding := SlotField.outstanding.value misread spelled.outstanding o.outstanding
    spoils := SlotField.spoils.value misread spelled.spoils o.spoils
    trayCount := SlotField.trayCount.value misread spelled.trayCount o.trayCount
    bin := SlotField.bin.value misread spelled.bin o.bin
    late := SlotField.late.value misread spelled.late o.late
    spill := SlotField.spill.value misread spelled.spill o.spill
    disturbed := SlotField.disturbed.value misread spelled.disturbed o.disturbed
    clamped := SlotField.clamped.value misread spelled.clamped o.clamped
    price := SlotField.price.value misread spelled.price o.price
    paid := SlotField.paid.value misread spelled.paid o.paid
    collected := SlotField.collected.value misread spelled.collected o.collected
    idle := SlotField.idle.value misread spelled.idle o.idle
    voids := SlotField.voids.value misread spelled.voids o.voids }

/-- The live slot `i` with its order `o` as an access uses it: unchanged with no word misread. A misread state word
may spell FREE. The order is given besides, for a slot that another word makes DAMAGED (R178, log entry 5). -/
def State.garble (s : State) (i : Nat) (misread : List RecordWord) (o : Order) : Order × State :=
  match misread with
  | [] => (o, s)
  | _ =>
    let spelled := Config.misread s.draws (some o)
    let used := misreadOrder misread (spelled.getD o) o
    let slot := if misread.contains .state && spelled.isNone then none else some used
    (used, { s.drawn with orders := { s.orders with slots := s.orders.slots.set i slot } })

/-- The FREE slot `i` as an access uses it, which is as spelled when its state word is misread (log entry 5). -/
def State.garbleFree (s : State) (i : Nat) (misread : List RecordWord) : State :=
  match misread with
  | [] => s
  | _ => { s.drawn with orders := { s.orders with slots := s.orders.slots.set i (Config.misread s.draws none) } }

/-- An access to a live slot reads all its words through the check code (R177, R178). A slot found DAMAGED keeps its
number as its clean or corrected number word gives it. A FREE or DAMAGED slot is not read. Log entry 33 says which
readings of a slot are accesses where the rules leave it open. -/
def readSlot (i : Nat) (s : State) : State :=
  match s.order? i with
  | none => s
  | some o =>
    if o.state = .damaged then s
    else
      match wrongWords (s.memory.upsets.filter fun u => u.slot == i) with
      | [] => s
      | words =>
        let (f, s1) := readWords i words (.clean, s)
        let (used, s2) := (s1.dropUpsets fun u => u.slot == i).garble i f.misread o
        if f.damaged then s2.damageSlot i used f.numberLost else s2

/-- The fields of a slot that an unreadable state word made live and DAMAGED; they can not be relied upon
and are not reported (R25, R178). -/
def unreadableOrder : Order :=
  { number := 0, owner := 0, tag := none, cls := .standard, queueClass := .standard
    promised := none, state := .damaged, lines := [], requested := 0, delivered := 0
    outstanding := 0, spoils := 0, trayCount := 0, bin := none, late := false, spill := false
    disturbed := false, clamped := false, price := none, paid := false, collected := false
    idle := 0, voids := none }

/-- The state word of a FREE slot is read through the check code: an uncorrectable one makes the slot a
live DAMAGED slot with number 0 (R178). -/
def readFreeSlot (i : Nat) (s : State) : State :=
  match s.order? i with
  | some _ => s
  | none =>
    let isWord := fun (u : Upset) => u.slot == i && u.word == .state
    match wrongWords (s.memory.upsets.filter isWord) with
    | [] => s
    | words =>
      let (f, s1) := readWords i words (.clean, s)
      let s2 := (s1.dropUpsets isWord).garbleFree i f.misread
      if f.damaged then s2.damageSlot i unreadableOrder true else s2

/-- Accesses to several slots, in the order given. -/
def readSlots (is : List Nat) (s : State) : State := is.foldl (fun s i => readSlot i s) s

/-- The walk of a retained start: every live slot's words and every FREE slot's state word, in ascending
index (R185). -/
def walkSlots (s : State) : State :=
  slotIndexes.foldl (fun s i => if (s.order? i).isSome then readSlot i s else readFreeSlot i s) s

end Sys2Proof.Machine
end

