-- ==== Sys2Proof/Machine/Operands.lean ====
section
/-! DEFINITION. The items of request and response bodies as bytes (R158): how an item is coded by its
range, how a request's body is read into the request it spells and written from it (R163, R167), and how
a list is cut to the 240 bytes of a body. -/

namespace Sys2Proof.Machine

/-! ### Items of a response (R158) -/

/-- A number of one byte. -/
def item8 (n : Nat) : List Byte := [BitVec.ofNat 8 n]

/-- A number of two bytes, low byte first. -/
def item16 (n : Nat) : List Byte := [BitVec.ofNat 8 n, BitVec.ofNat 8 (n / 256)]

/-- A number of four bytes, low byte first. -/
def item32 (n : Nat) : List Byte :=
  [BitVec.ofNat 8 n, BitVec.ofNat 8 (n / 256), BitVec.ofNat 8 (n / 65536),
   BitVec.ofNat 8 (n / 16777216)]

/-- A signed number of one byte in two's complement. -/
def itemInt8 (n : Int) : List Byte := [BitVec.ofInt 8 n]

/-- A signed number of two bytes in two's complement. -/
def itemInt16 (n : Int) : List Byte := item16 (BitVec.ofInt 16 n).toNat

/-- A 32-bit word. -/
def itemWord (w : Word32) : List Byte := item32 w.toNat

/-- A flag or key. -/
def itemFlag (b : Bool) : List Byte := item8 b.toNat

/-- An optional item: a presence byte, then the item when it is present. -/
def itemOption {α : Type} (code : α → List Byte) : Option α → List Byte
  | none => item8 0
  | some a => item8 1 ++ code a

/-- A list of varying length whose bound fits one byte: its count, then its entries. -/
def itemList8 {α : Type} (code : α → List Byte) (l : List α) : List Byte :=
  item8 l.length ++ l.flatMap code

/-- A customer tag: its length in one byte, then its characters. -/
def itemTag (chars : List Byte) : List Byte := item8 chars.length ++ chars

/-- Flags sent as a mask, bit 0 for the first. -/
def maskOf : List Bool → Nat
  | [] => 0
  | b :: rest => b.toNat + 2 * maskOf rest

/-- The entries from a list's start that fit in `room` bytes (R158). -/
def fitting : (room : Nat) → List (List Byte) → List (List Byte)
  | _, [] => []
  | room, e :: rest => if e.length ≤ room then e :: fitting (room - e.length) rest else []

/-- A list cut to the bytes a body has left, followed by the flag that says whether further entries lie
beyond it; `more` says that the rule itself gives further entries (R158). -/
def itemCutList (used : Nat) (entries : List (List Byte)) (more : Bool) : List Byte :=
  let given := fitting (Config.bodyLimit - used - 2) entries
  item8 given.length ++ given.flatten ++ itemFlag (more || decide (given.length < entries.length))

/-! ### Items of a request (R158, R163) -/

/-- What is left of a body after one item is read from its start, or none when the body is too short. -/
abbrev Reads (α : Type) : Type := List Byte → Option (α × List Byte)

/-- Read a byte. -/
def readByte : Reads Byte
  | b :: rest => some (b, rest)
  | [] => none

/-- Read a number of one byte. -/
def read8 : Reads Nat
  | b :: rest => some (b.toNat, rest)
  | [] => none

/-- Read a number of two bytes. -/
def read16 : Reads Nat
  | b0 :: b1 :: rest => some (b0.toNat + 256 * b1.toNat, rest)
  | _ => none

/-- Read a number of four bytes. -/
def read32 : Reads Nat
  | b0 :: b1 :: b2 :: b3 :: rest =>
    some (b0.toNat + 256 * b1.toNat + 65536 * b2.toNat + 16777216 * b3.toNat, rest)
  | _ => none

/-- Read a 32-bit word. -/
def readWord : Reads Word32 := fun body => (read32 body).map fun (n, rest) => (BitVec.ofNat 32 n, rest)

/-- Read a signed number of one byte. -/
def readInt8 : Reads Int
  | b :: rest => some (b.toInt, rest)
  | [] => none

/-- Read a flag: 0 clear, 1 set; another byte spells no flag (R158, log entry 8). -/
def readFlag : Reads Bool
  | b :: rest => if b = 0 then some (false, rest) else if b = 1 then some (true, rest) else none
  | [] => none

/-- Read an optional item after its presence byte. -/
def readOption {α : Type} (item : Reads α) : Reads (Option α) := fun body =>
  match readFlag body with
  | some (false, rest) => some (none, rest)
  | some (true, rest) => (item rest).map fun (a, rest) => (some a, rest)
  | none => none

/-- Read a stated number of items one after another. -/
def readMany {α : Type} (item : Reads α) : Nat → Reads (List α)
  | 0, body => some ([], body)
  | n + 1, body =>
    match item body with
    | some (a, rest) => (readMany item n rest).map fun (l, rest) => (a :: l, rest)
    | none => none

/-- Read a list after its count. -/
def readList8 {α : Type} (item : Reads α) : Reads (List α) := fun body =>
  match read8 body with
  | some (n, rest) => readMany item n rest
  | none => none

/-- Read two items in turn. -/
def readPair {α β : Type} (first : Reads α) (second : Reads β) : Reads (α × β) := fun body =>
  match first body with
  | some (a, rest) => (second rest).map fun (b, rest) => ((a, b), rest)
  | none => none

/-- Read a full line as ADD_LINE carries it (R8). -/
def readLine : Reads LineItem := fun body =>
  match readPair (readMany read8 4) (readPair (readMany readInt8 4) readWord) body with
  | some (([size, surface, quantity, border], [d, c, m, y], handle), rest) =>
    some ({ size, surface, quantity, border, d, c, m, y, handle }, rest)
  | _ => none

/-- Read the selector of FIND_ORDERS: its kind, coded from 0 in the order R27 lists them, then its value. A kind
byte above 2 spells no selector (log entry 8). -/
def readSelector : Reads Selector := fun body =>
  match read8 body with
  | some (0, rest) => (readList8 readByte rest).map fun (t, rest) => (.tag t, rest)
  | some (1, rest) => (read8 rest).map fun (n, rest) => (.state n, rest)
  | some (2, rest) => (read8 rest).map fun (n, rest) => (.owner n, rest)
  | _ => none

/-- A body that an item fits exactly: long enough for it and with nothing after it (R163). -/
def whole {α β : Type} (item : Reads α) (f : α → β) (body : List Byte) : Option β :=
  match item body with
  | some (a, []) => some (f a)
  | _ => none

/-- A body with no items. -/
def noItems {β : Type} (b : β) (body : List Byte) : Option β :=
  if body.isEmpty then some b else none

/-- Whether a code names a request of the catalogue: 01 hex to 2A hex (R167). -/
def isRequestCode (code : Nat) : Bool := decide (1 ≤ code) && decide (code ≤ 0x2A)

/-- The request that the items of a body spell; none when the body does not fit the items of the request or one
of its bytes codes nothing, or when the code names no request (R158, R167). -/
def readItems (code : Nat) (body : List Byte) : Option Request :=
  match code with
  | 0x01 => whole (readPair read8 (readPair (readOption read16) (readOption (readList8 readByte))))
      (fun (cls, promise, tag) => .openOrder cls promise tag) body
  | 0x02 => whole (readPair read16 readLine) (fun (n, line) => .addLine n line) body
  | 0x03 => whole (readPair read16 (readPair read8 readLine))
      (fun (n, position, line) => .changeLine n position line) body
  | 0x04 => whole (readPair read16 read8) (fun (n, position) => .dropLine n position) body
  | 0x05 => whole read16 .submit body
  | 0x06 => whole read16 .withdraw body
  | 0x07 => whole read16 .cancel body
  | 0x08 => whole read16 .readOrder body
  | 0x09 => whole (readPair readSelector read16) (fun (sel, start) => .findOrders sel start) body
  | 0x0A => whole (readPair read16 read8) (fun (minute, second) => .setClock minute second) body
  | 0x0B => noItems .readClock body
  | 0x0C => whole read16 .retryFault body
  | 0x0D => whole read16 .promote body
  | 0x0E => whole (readPair read16 (readOption read16)) (fun (p, n) => .readQueue p n) body
  | 0x0F => noItems .halt body
  | 0x10 => noItems .resume body
  | 0x11 => noItems .selectMagazine body
  | 0x12 => whole (readPair read8 read16) (fun (m, metres) => .loadMagazine m metres) body
  | 0x13 => whole (readPair read8 (readPair read8 (readPair read8 (readList8 read16))))
      (fun (bank, channel, start, levels) => .lutWrite bank channel start levels) body
  | 0x14 => noItems .lutSwitch body
  | 0x15 => noItems .readEngine body
  | 0x16 => whole (readOption readFlag) .clearFault body
  | 0x17 => whole read8 .readTrain body
  | 0x18 => whole read16 .collect body
  | 0x19 => noItems .readBins body
  | 0x1A => whole read8 .emptyTrays body
  | 0x1B => whole read16 .quote body
  | 0x1C => whole (readPair read16 read32) (fun (n, amount) => .pay n amount) body
  | 0x1D => whole read8 .startCal body
  | 0x1E => whole read8 .waiveCal body
  | 0x1F => whole read8 .readCal body
  | 0x20 => whole (readPair (readOption read8) (readOption read8))
      (fun (address, lab) => .linkSetup address lab) body
  | 0x21 => noItems .reset body
  | 0x22 => noItems .readLink body
  | 0x23 => noItems .readViolation body
  | 0x24 => noItems .clearViolation body
  | 0x25 => noItems .readNotices body
  | 0x26 => whole read8 .clearNotice body
  | 0x27 => whole read16 (fun n => .setNoticeEnables (BitVec.ofNat 16 n)) body
  | 0x28 => whole (readPair read8 (readPair read8 read8))
      (fun (sheet, start, count) => .storeRead sheet start count) body
  | 0x29 => whole (readPair read8 (readPair read8 (readList8 readWord)))
      (fun (sheet, start, values) => .storeWrite sheet start values) body
  | 0x2A => whole read8 .releaseDamaged body
  | _ => none

/-! ### The length of a body alone (R163, test 3)

A byte that should say whether or how an item follows, and codes nothing, leaves the length open: the body fits
when it fits under some reading of that byte (log entry 8). -/

/-- What a body may leave after an item, one entry for each reading; empty when it is too short. -/
abbrev Fits : Type := List Byte → List (List Byte)

/-- An item of a fixed number of bytes. -/
def fitsBytes (n : Nat) : Fits := fun body => if n ≤ body.length then [body.drop n] else []

/-- An item preceded by its length in one byte. -/
def fitsCounted : Fits
  | n :: rest => fitsBytes n.toNat rest
  | [] => []

/-- An optional item; a presence byte above 1 leaves open whether the item follows. -/
def fitsOption (item : Fits) : Fits
  | p :: rest => if p = 0 then [rest] else if p = 1 then item rest else rest :: item rest
  | [] => []

/-- The selector of FIND_ORDERS; a kind byte above 2 leaves open how its value is coded. -/
def fitsSelector : Fits
  | k :: rest =>
    if k = 0 then fitsCounted rest
    else if k = 1 ∨ k = 2 then fitsBytes 1 rest
    else fitsBytes 1 rest ++ fitsCounted rest
  | [] => []

/-- Two items in turn. -/
def fitsPair (first second : Fits) : Fits := fun body => (first body).flatMap second

/-- Whether the length of a body fits the items of a request that carries a flag, an optional item or a selector.
Every other request is spelled by every body of a fitting length. -/
def bodyFits (code : Nat) (body : List Byte) : Bool :=
  let items : Fits := match code with
    | 0x01 => fitsPair (fitsBytes 1) (fitsPair (fitsOption (fitsBytes 2)) (fitsOption fitsCounted))
    | 0x09 => fitsPair fitsSelector (fitsBytes 2)
    | 0x0E => fitsPair (fitsBytes 2) (fitsOption (fitsBytes 2))
    | 0x16 => fitsOption (fitsBytes 1)
    | 0x20 => fitsPair (fitsOption (fitsBytes 1)) (fitsOption (fitsBytes 1))
    | _ => fun _ => []
  (items body).any List.isEmpty

/-- The request a code and a body carry; none when the length of the body does not fit the items of the request
(R163) or the code names none (R167). -/
def readRequest (code : Nat) (body : List Byte) : Option Request :=
  match readItems code body with
  | some r => some r
  | none => if bodyFits code body then some (.unspelled code body) else none

/-- The code of a request (R167). -/
def requestCode : Request → Nat
  | .openOrder .. => 0x01
  | .addLine .. => 0x02
  | .changeLine .. => 0x03
  | .dropLine .. => 0x04
  | .submit _ => 0x05
  | .withdraw _ => 0x06
  | .cancel _ => 0x07
  | .readOrder _ => 0x08
  | .findOrders .. => 0x09
  | .setClock .. => 0x0A
  | .readClock => 0x0B
  | .retryFault _ => 0x0C
  | .promote _ => 0x0D
  | .readQueue .. => 0x0E
  | .halt => 0x0F
  | .resume => 0x10
  | .selectMagazine => 0x11
  | .loadMagazine .. => 0x12
  | .lutWrite .. => 0x13
  | .lutSwitch => 0x14
  | .readEngine => 0x15
  | .clearFault _ => 0x16
  | .readTrain _ => 0x17
  | .collect _ => 0x18
  | .readBins => 0x19
  | .emptyTrays _ => 0x1A
  | .quote _ => 0x1B
  | .pay .. => 0x1C
  | .startCal _ => 0x1D
  | .waiveCal _ => 0x1E
  | .readCal _ => 0x1F
  | .linkSetup .. => 0x20
  | .reset => 0x21
  | .readLink => 0x22
  | .readViolation => 0x23
  | .clearViolation => 0x24
  | .readNotices => 0x25
  | .clearNotice _ => 0x26
  | .setNoticeEnables _ => 0x27
  | .storeRead .. => 0x28
  | .storeWrite .. => 0x29
  | .releaseDamaged _ => 0x2A
  | .unspelled code _ => code

/-- A full line as ADD_LINE carries it. -/
def itemLine (l : LineItem) : List Byte :=
  item8 l.size ++ item8 l.surface ++ item8 l.quantity ++ item8 l.border
    ++ itemInt8 l.d ++ itemInt8 l.c ++ itemInt8 l.m ++ itemInt8 l.y ++ itemWord l.handle

/-- The selector of FIND_ORDERS. -/
def itemSelector : Selector → List Byte
  | .tag t => item8 0 ++ itemTag t
  | .state n => item8 1 ++ item8 n
  | .owner n => item8 2 ++ item8 n

/-- The body of a request frame, as a station writes it (R158). -/
def requestBody : Request → List Byte
  | .openOrder cls promise tag => item8 cls ++ itemOption item16 promise ++ itemOption itemTag tag
  | .addLine n line => item16 n ++ itemLine line
  | .changeLine n position line => item16 n ++ item8 position ++ itemLine line
  | .dropLine n position => item16 n ++ item8 position
  | .submit n => item16 n
  | .withdraw n => item16 n
  | .cancel n => item16 n
  | .readOrder n => item16 n
  | .findOrders sel start => itemSelector sel ++ item16 start
  | .setClock minute second => item16 minute ++ item8 second
  | .readClock => []
  | .retryFault n => item16 n
  | .promote n => item16 n
  | .readQueue start n => item16 start ++ itemOption item16 n
  | .halt => []
  | .resume => []
  | .selectMagazine => []
  | .loadMagazine m metres => item8 m ++ item16 metres
  | .lutWrite bank channel start levels =>
    item8 bank ++ item8 channel ++ item8 start ++ itemList8 item16 levels
  | .lutSwitch => []
  | .readEngine => []
  | .clearFault counts => itemOption itemFlag counts
  | .readTrain place => item8 place
  | .collect n => item16 n
  | .readBins => []
  | .emptyTrays sel => item8 sel
  | .quote n => item16 n
  | .pay n amount => item16 n ++ item32 amount
  | .startCal surface => item8 surface
  | .waiveCal surface => item8 surface
  | .readCal surface => item8 surface
  | .linkSetup address lab => itemOption item8 address ++ itemOption item8 lab
  | .reset => []
  | .readLink => []
  | .readViolation => []
  | .clearViolation => []
  | .readNotices => []
  | .clearNotice kind => item8 kind
  | .setNoticeEnables mask => item16 mask.toNat
  | .storeRead sheet start count => item8 sheet ++ item8 start ++ item8 count
  | .storeWrite sheet start values => item8 sheet ++ item8 start ++ itemList8 itemWord values
  | .releaseDamaged slot => item8 slot
  | .unspelled _ body => body

/-- The order number a request names (R171), if it names one. -/
def namedNumber : Request → Option Nat
  | .addLine n _ => some n
  | .changeLine n _ _ => some n
  | .dropLine n _ => some n
  | .submit n => some n
  | .withdraw n => some n
  | .cancel n => some n
  | .readOrder n => some n
  | .retryFault n => some n
  | .promote n => some n
  | .readQueue _ n => n
  | .collect n => some n
  | .quote n => some n
  | .pay n _ => some n
  | _ => none

/-- The sheet a store request names (R171). -/
def namedSheet : Request → Option Nat
  | .storeRead sheet _ _ => some sheet
  | .storeWrite sheet _ _ => some sheet
  | _ => none

/-! ### Codes of listed values (R158): from 0 in the order their rule lists them -/

def OrderClass.code : OrderClass → Nat
  | .standard => 0
  | .rush => 1

/-- The class a code names; none outside STANDARD and RUSH (R6). -/
def OrderClass.ofCode : Nat → Option OrderClass
  | 0 => some .standard
  | 1 => some .rush
  | _ => none

def OrderState.code : OrderState → Nat
  | .draft => 0
  | .held => 1
  | .queued => 2
  | .exposing => 3
  | .complete => 4
  | .ready => 5
  | .cancelling => 6
  | .fault => 7
  | .damaged => 8

def Border.code : Border → Nat
  | .none => 0
  | .white => 1

/-- The border a code names; none outside NONE and WHITE (R8). -/
def Border.ofCode : Nat → Option Border
  | 0 => some .none
  | 1 => some .white
  | _ => Option.none

def UnitKind.code : UnitKind → Nat
  | .print => 0
  | .reprint => 1
  | .strip => 2

def Place.code : Place → Nat
  | .queue => 0
  | .engine => 1
  | .train => 2

def HeldCause.code : HeldCause → Nat
  | .room => 0
  | .sizeSheet => 1
  | .sizeUnused => 2

def EngineState.code : EngineState → Nat
  | .idle => 0
  | .switching => 1
  | .exposing => 2
  | .held => 3

/-- The phase code, 0 for none (R70). -/
def phaseCode : Option Phase → Nat
  | none => 0
  | some .lead => 1
  | some .topBorder => 2
  | some .image => 3
  | some .bottomBorder => 4
  | some .mark => 5

/-- The magazine a code names (R82). -/
def magazineOfCode : Nat → Option Magazine
  | 0 => some .a
  | 1 => some .b
  | _ => none

def magazineCode : Magazine → Nat
  | .a => 0
  | .b => 1

def BinState.code : BinState → Nat
  | .free => 0
  | .filling => 1
  | .ready => 2
  | .discard => 3

/-- The gate code: bins 1..24, then OVERFLOW and REJECT, from 0 in the order R111 lists them. -/
def Gate.code : Gate → Nat
  | .bin n => n - 1
  | .overflow => 24
  | .reject => 25

def SheetName.code : SheetName → Nat
  | .size => 0
  | .price => 1
  | .calibration => 2
  | .stations => 3
  | .general => 4

/-- The sheet a code names (R181). -/
def SheetName.ofCode : Nat → Option SheetName
  | 0 => some .size
  | 1 => some .price
  | 2 => some .calibration
  | 3 => some .stations
  | 4 => some .general
  | _ => none

def CalOutcome.code : CalOutcome → Nat
  | .accepted => 0
  | .failed => 1
  | .abandoned => 2

def AbandonCause.code : AbandonCause → Nat
  | .spoiled => 0
  | .blindCut => 1
  | .reset => 2

def DenyCause.code : DenyCause → Nat
  | .notEnabled => 0
  | .noRight => 1
  | .notOwner => 2
  | .labOnly => 3
  | .sheetBad => 4

/-- The status value of a response (10.6). -/
def Status.code : Status → Nat
  | .ok => 0x00
  | .okClamped => 0x01
  | .denied => 0x02
  | .noOrder => 0x03
  | .wrongState => 0x04
  | .full => 0x05
  | .tooMany => 0x06
  | .badValue => 0x07
  | .storeBusy => 0x08
  | .sheetBad => 0x09
  | .notSetUp => 0x0A
  | .damaged => 0x0B
  | .notPriced => 0x0C
  | .shortPayment => 0x0D
  | .unknownRequest => 0x0E

/-- A shop time with its set flag. -/
def itemTime (t : ShopTime) : List Byte := item16 t.minute ++ item8 t.second ++ itemFlag t.isSet

end Sys2Proof.Machine
end

