-- ==== Sys2Proof/Machine/Dose.lean ====
section
/-! DEFINITION. The Dose Calculator: exact integer arithmetic from corrections, lab balance, base times and
lamp factor to the three channel times, the clamp flags and the line period (chapter 4). -/

namespace Sys2Proof.Machine

/-- A quotient of naturals rounded half up (1.8, R62). -/
def roundHalfUp (numerator divisor : Nat) : Nat := (2 * numerator + divisor) / (2 * divisor)

/-- A quotient of a signed numerator rounded half away from zero (1.8, R152). -/
def roundHalfAway (numerator : Int) (divisor : Nat) : Int :=
  numerator.sign * (roundHalfUp numerator.natAbs divisor : Int)

/-- A value clamped to a range (1.8). -/
def clampInt (low high x : Int) : Int := max low (min high x)

/-- The fraction table F (R61). -/
def fractionTable : List Nat := [1024, 1097, 1176, 1261, 1351, 1448, 1552, 1663, 1783, 1911]

/-- The step sum of a channel after its clamp (R59). -/
def stepSum (density colour balance : Int) : Int := clampInt (-60) 60 (density + colour + balance)

/-- Whole stops of a step sum: its floor tenth (R60). -/
def wholeStops (sum : Int) : Int := sum / 10

/-- Tenths of a step sum, 0..9 (R60). -/
def tenths (sum : Int) : Nat := (sum % 10).toNat

/-- The first time T1 (R62): for stops at or above 0 the numerator carries them, below 0 the divisor. -/
def firstTime (base : Nat) (sum : Int) : Nat :=
  let f := fractionTable.getD (tenths sum) 0
  match wholeStops sum with
  | .ofNat q => roundHalfUp (base * f * 2 ^ q) 1024
  | .negSucc q => roundHalfUp (base * f) (1024 * 2 ^ (q + 1))

/-- The second time T2, with the lamp factor (R63). -/
def secondTime (first lampFactor : Nat) : Nat := roundHalfUp (first * lampFactor) 1024

/-- The channel's exposure time: T2 clamped to 40..16000 (R64). -/
def channelTime (second : Nat) : Nat := max 40 (min 16000 second)

/-- Whether the final clamp limited the time (R64). -/
def channelClamped (second : Nat) : Bool := decide (second < 40) || decide (16000 < second)

/-- The line period (R66). -/
def linePeriod (r g b : Nat) : Nat := max (r + g + b + 32) 400

/-- The four corrections of a line (R57). -/
structure Corrections where
  d : Int
  c : Int
  m : Int
  y : Int
  deriving DecidableEq, Repr

/-- The corrections of a unit that reads none (R58). -/
def Corrections.zero : Corrections := { d := 0, c := 0, m := 0, y := 0 }

/-- The corrections of a line. -/
def Line.corrections (l : Line) : Corrections := { d := l.d, c := l.c, m := l.m, y := l.y }

/-- The second time of one channel of a surface (R59 to R63). -/
def channelSecond (cal : Sheet) (surface channel : Nat) (density colour : Int) : Nat :=
  secondTime
    (firstTime (cal.baseTime surface channel) (stepSum density colour (cal.labBalance surface channel)))
    cal.lampFactor

/-- The exposure of a unit (R56): cyan moves red, magenta green, yellow blue (R59). -/
def dose (cal : Sheet) (surface : Nat) (k : Corrections) : Exposure :=
  let r := channelSecond cal surface 0 k.d k.c
  let g := channelSecond cal surface 1 k.d k.m
  let b := channelSecond cal surface 2 k.d k.y
  { timeR := channelTime r, timeG := channelTime g, timeB := channelTime b
    clampR := channelClamped r, clampG := channelClamped g, clampB := channelClamped b
    period := linePeriod (channelTime r) (channelTime g) (channelTime b) }

/-- Whether any clamp flag is set (R65). -/
def Exposure.anyClamp (e : Exposure) : Bool := e.clampR || e.clampG || e.clampB

end Sys2Proof.Machine
end

