-- ==== Sys2Proof/Machine/Price.lean ====
section
/-! DEFINITION. The Price Unit: the charge of an order from the PRICE sheet, the pricing pass (chapter 8). -/

namespace Sys2Proof.Machine

/-- The count of prints of a size code on an order's lines, whatever their surface (R132). -/
def sizeCount (lines : List Line) (size : Nat) : Nat :=
  totalQuantity (lines.filter fun l => l.size == size)

/-- The unit price of a size for a count of prints (R132). -/
def unitPrice (price : Sheet) (size count : Nat) : Nat :=
  let q1 := highHalf (price.entry (3 * size))
  let q2 := highHalf (price.entry (3 * size + 1))
  if q2 ≠ 0 ∧ q2 ≤ count then lowHalf (price.entry (3 * size + 2))
  else if q1 ≠ 0 ∧ q1 ≤ count then lowHalf (price.entry (3 * size + 1))
  else lowHalf (price.entry (3 * size))

/-- The surcharge of a surface per print (R129). -/
def surcharge (price : Sheet) (surface : Nat) : Nat := price.value (48 + surface)

/-- A line amount (R133). -/
def lineAmount (price : Sheet) (lines : List Line) (l : Line) : Nat :=
  l.quantity * (unitPrice price l.size (sizeCount lines l.size) + surcharge price l.surface)

/-- The subtotal (R133). -/
def subtotal (price : Sheet) (lines : List Line) : Nat :=
  (lines.map (lineAmount price lines)).sum

/-- A percentage of the subtotal, rounded half up (R134). -/
def percentOf (amount percent : Nat) : Nat := (amount * percent + 50) / 100

/-- The total: the minimum applies after the discount, and the result saturates (R135). -/
def totalOf (subtotal rushAdd lateDiscount minimum : Nat) : Nat :=
  min (max (subtotal + rushAdd - lateDiscount) minimum) 9999999

/-- The price of an order from a PRICE sheet, with the sheet's write count (R132 to R136). -/
def priceOf (price : Sheet) (o : Order) : PriceRecord :=
  let sum := subtotal price o.lines
  let rush := if o.cls = .rush then percentOf sum (price.value 52) else 0
  let late := if o.late then percentOf sum (price.value 53) else 0
  { subtotal := sum, rushAdd := rush, lateDiscount := late
    total := totalOf sum rush late (price.value 54), writeCount := price.writes }

/-- One order is priced when its slot, read through the check code, is still in COMPLETE and the PRICE
sheet is good: the record is written and the order enters READY (R130, R131, R136). The search for COMPLETE orders
is no access: only a slot that shows COMPLETE is read, and none while the sheet is BAD (log entry 33). -/
def priceSlot (i : Nat) (s : State) : State :=
  if s.store.price.bad then s
  else
    match s.order? i with
    | none => s
    | some o =>
      if o.state = .complete then
        let s1 := readSlot i s
        match s1.order? i with
        | some o1 =>
          if o1.state = .complete then
            s1.setOrder i { o1 with state := .ready, price := some (priceOf s1.store.price o1) }
          else s1
        | none => s1
      else s

/-- A pricing pass over every slot in ascending index (R130). -/
def pricingPass (s : State) : State := slotIndexes.foldl (fun s i => priceSlot i s) s

/-- The pass that an order's entry to COMPLETE starts; one that finds a write cycle running is met by the
pass at the cycle's end (R130, R131). -/
def priceCompleted (i : Nat) (s : State) : State :=
  if s.cycleRuns then s else priceSlot i s

end Sys2Proof.Machine
end

