-- ==== Sys2Proof/Machine/Queue.lean ====
section
/-! DEFINITION. The Exposure Queue: making units, admission and held trials, spoils and reprints, removal,
promotion, eligibility and the choice of the next unit (chapter 3). -/

namespace Sys2Proof.Machine

/-! ### Admission (R36, R37) -/

/-- The figure record of a line, as read at admission (R34, R36). -/
def lineFigure (size general : Sheet) (l : Line) : LineFigure :=
  { lead := general.leadGap, print := size.printLength l.size
    border := if l.border = .white then size.borderLines l.size else 0
    mark := general.markLines, width := size.rollWidth l.size }

/-- A unit that waits in the queue, for a copy of a line (R32). -/
def orderUnit (kind : UnitKind) (slot number position copy lineage surface : Nat) (f : LineFigure) :
    PrintUnit :=
  { kind, slot := some slot, number := some number, position := some position, copy := some copy
    lineage, surface, width := some f.width, lead := f.lead, print := f.print, border := f.border
    mark := f.mark, place := .queue, spoiled := false, void := false, exposure := none }

/-- The PRINT units of one line, in copy order (R36). -/
def lineUnits (slot number position : Nat) (l : Line) (f : LineFigure) : List PrintUnit :=
  (List.range l.quantity).map fun k => orderUnit .print slot number position (k + 1) 0 l.surface f

/-- The PRINT units of an order, in line order from a first position (R36). -/
def admittedUnits (slot number : Nat) : (position : Nat) → List Line → List LineFigure →
    List PrintUnit
  | position, l :: ls, f :: fs =>
    lineUnits slot number position l f ++ admittedUnits slot number (position + 1) ls fs
  | _, _, _ => []

/-- Whether the admission count test passes for a number of units (R36, R41). -/
def State.hasRoom (s : State) (units : Nat) : Bool :=
  decide (s.queueCount + units ≤ Config.admissionLimit)

/-- The order in a slot is admitted: its figures entry is made, its R units join the tail of its class's
section, and it enters QUEUED with O set to R (R36). -/
def admitOrder (i : Nat) (o : Order) (s : State) : State :=
  let figures := o.lines.map (lineFigure s.store.size s.store.general)
  let s1 := s.setFigures i (some { figures, missing := [] })
  let (ids, s2) := s1.makeUnits (admittedUnits i o.number 1 o.lines figures)
  (s2.joinTail o.queueClass ids).setOrder i
    { o with state := .queued, outstanding := o.requested, idle := 0 }

/-- A line whose size code now has print length 0: the position of the first (R12, R37). -/
def unusedSizeLine (size : Sheet) (lines : List Line) : Option Nat :=
  (lines.findIdx? fun l => size.printLength l.size == 0).map (· + 1)

/-- The first test a held trial of an order fails, if any (R37). -/
def trialCause (s : State) (o : Order) : Option HeldCause :=
  if s.store.size.bad then some .sizeSheet
  else if (unusedSizeLine s.store.size o.lines).isSome then some .sizeUnused
  else if s.hasRoom o.requested then none
  else some .room

/-- The held cause is recorded or cleared (R37). -/
def State.setHeldCause (s : State) (cause : Option HeldCause) : State :=
  { s with queue := { s.queue with heldCause := cause } }

/-- Held trials: the head is tried, and while it is admitted or leaves the list the new head is tried at
once (R13). The first argument bounds the heads tried; the list is shorter after each. -/
def heldTrials : Nat → State → State
  | 0, s => s
  | n + 1, s =>
    match s.orders.heldList with
    | [] => s.setHeldCause none
    | i :: _ =>
      let s1 := readSlot i s
      match s1.orders.heldList, s1.order? i with
      | j :: rest, some o =>
        if j = i then
          match trialCause s1 o with
          | some cause => s1.setHeldCause (some cause)
          | none =>
            heldTrials n (admitOrder i o ({ s1 with
              orders := { s1.orders with heldList := rest } }.setHeldCause none))
        else heldTrials n s1
      | _, none => heldTrials n (s1.leaveHeldList i)
      | [], _ => s1.setHeldCause none

/-- The held trial that is owed is made, unless a write cycle delays it to the cycle's end (R13, R36). -/
def runTrials (s : State) : State :=
  if s.orders.trialDue && !s.cycleRuns then
    let s1 := heldTrials (s.orders.heldList.length + 1) s
    { s1 with orders := { s1.orders with trialDue := false } }
  else s

/-! ### Spoils and reprints (R38 to R41) -/

/-- The reprint of a unit at a lineage (R38, R40). -/
def PrintUnit.reprint (u : PrintUnit) (lineage : Nat) : PrintUnit :=
  { u with kind := .reprint, lineage, place := .queue, spoiled := false, void := false
           exposure := none }

/-- The strip in OUT is marked abandoned, cause SPOILED (R148). -/
def stripSpoiled (id : Nat) (s : State) : State :=
  match s.cal.strip with
  | .out surface unit _ =>
    if unit = id then { s with cal := { s.cal with strip := .out surface unit true } } else s
  | _ => s

/-- Order states in which a spoil is replaced or counted missing (R16, R38). -/
def OrderState.spoilsCount : OrderState → Bool
  | .queued | .exposing | .fault => true
  | _ => false

/-- A spoil below lineage 2: the reprint goes to the head of its class's section and the order's spoil
count rises (R38, R16). -/
def spoilReprinted (i : Nat) (o : Order) (u : PrintUnit) (s : State) : State :=
  let (id, s1) := s.makeUnit (u.reprint (u.lineage + 1))
  (s1.joinHead o.queueClass id.toList).setOrder i { o with spoils := satUp o.spoils 65535 }

/-- A spoil at lineage 2: the pair joins the missing list, O falls, and the order goes to FAULT with
ORDER_FAULT (R39, R16). -/
def spoilMissing (i : Nat) (o : Order) (u : PrintUnit) (s : State) : State :=
  let s1 := match s.figures? i with
    | some e => s.setFigures i (some { e with
        missing := e.missing ++ [(u.position.getD 0, u.copy.getD 0)] })
    | none => s
  (s1.setOrder i { o with
    state := .fault, spoils := satUp o.spoils 65535, outstanding := o.outstanding - 1
    }).raise .orderFault o.number

/-- A spoil report of a unit other than a reset-spoil (R38). -/
def spoilReport (id : Nat) (s : State) : State :=
  match s.unit? id with
  | none => s
  | some u =>
    if u.spoiled then s
    else
      let s1 := s.setUnit id { u with spoiled := true }
      if u.kind = .strip then stripSpoiled id s1
      else if u.void then s1
      else
        match u.slot with
        | none => s1
        | some i =>
          let s2 := readSlot i s1
          match s2.soundOrder u with
          | none => s2
          | some o =>
            if o.state.spoilsCount then
              if u.lineage < 2 then spoilReprinted i o u s2 else spoilMissing i o u s2
            else s2

/-- A VOID unit of an order in CANCELLING has left the print path: the void count falls, and the slot is
freed when it reaches 0 (R22). -/
def voidGone (u : PrintUnit) (s : State) : State :=
  match u.slot, s.unitOrder u with
  | some i, some o =>
    if o.state = .cancelling then
      let left := o.voids.getD 0 - 1
      if left = 0 then s.freeSlot i else s.setOrder i { o with voids := some left }
    else s
  | _, _ => s

/-- One unit of the engine or the train is reset-spoiled (R40); the reprints made so far are kept apart, by
class, in exposure order. The order's slot is read through the check code for every print, also for one
already SPOILED, whose row in R40's table needs no order (log entry 33). -/
def resetSpoil (id : Nat) (acc : (List Nat × List Nat) × State) : (List Nat × List Nat) × State :=
  let ((rush, standard), s) := acc
  match s.unit? id with
  | none => acc
  | some u =>
    if u.kind = .strip then ((rush, standard), s.releaseUnit id)
    else
      let s1 := match u.slot with
        | some i => readSlot i s
        | none => s
      if u.void then ((rush, standard), voidGone u (s1.releaseUnit id))
      else if u.spoiled then ((rush, standard), s1.releaseUnit id)
      else
        match u.slot, s1.soundOrder u with
        | some i, some o =>
          let (made, s2) := s1.makeUnit (u.reprint u.lineage)
          let s3 := (s2.releaseUnit id).setOrder i { o with spoils := satUp o.spoils 65535 }
          match o.queueClass with
          | .rush => ((rush ++ made.toList, standard), s3)
          | .standard => ((rush, standard ++ made.toList), s3)
        | _, _ => ((rush, standard), s1.releaseUnit id)

/-- Every unit in flight is reset-spoiled in exposure order, and the reprints are placed together at the
heads of their sections (R40). -/
def resetSpoilAll (ids : List Nat) (s : State) : State :=
  let ((rush, standard), s1) := ids.foldl (fun acc id => resetSpoil id acc) (([], []), s)
  (s1.joinHead .rush rush).joinHead .standard standard

/-- A (line position, copy index) pair put into a list in line order and, within a line, copy order. -/
def insertPair (p : Nat × Nat) : List (Nat × Nat) → List (Nat × Nat)
  | [] => [p]
  | q :: rest =>
    if p.1 < q.1 ∨ (p.1 = q.1 ∧ p.2 ≤ q.2) then p :: q :: rest else q :: insertPair p rest

/-- The pairs of a missing list in line order and, within a line, in copy order (R41). -/
def missingInOrder (missing : List (Nat × Nat)) : List (Nat × Nat) := missing.foldr insertPair []

/-- The REPRINT units of a retry, from the order's lines and figures (R41). -/
def retryUnits (i : Nat) (o : Order) (e : FigureEntry) : List PrintUnit :=
  (missingInOrder e.missing).filterMap fun (position, copy) =>
    match o.lines[position - 1]?, e.figures[position - 1]? with
    | some l, some f => some (orderUnit .reprint i o.number position copy 0 l.surface f)
    | _, _ => none

/-! ### Promotion (R44) -/

/-- The order's units in the STANDARD section move to the tail of the RUSH section, in their order; the
number moved is answered (R44, R45). -/
def promoteUnits (i number : Nat) (s : State) : Nat × State :=
  let isIts := fun (id : Nat) => (s.unit? id).any fun u => u.isOf i number
  let moved := s.queue.standard.filter isIts
  if moved.isEmpty then (0, s)
  else
    (moved.length,
      { s with queue := { s.queue with
          standard := s.queue.standard.filter fun id => !isIts id
          rush := s.queue.rush ++ moved, signal := true } })

/-! ### Eligibility and the next unit (R43, R47, R49, R50) -/

/-- Whether a surface is under a strict calibration hold (R47, R145). -/
def State.strictHold (s : State) (surface : Nat) : Bool :=
  (s.surface surface).due && !s.store.calibration.bad && s.store.calibration.strict surface

/-- Whether a unit is eligible on a magazine (R47). -/
def State.eligible (s : State) (m : Magazine) (id : Nat) : Bool :=
  match s.unit? id with
  | none => false
  | some u =>
    let r := s.engine.mag m
    r.present && !r.paperEnd
      && r.surface == some u.surface
      && (u.kind == .strip || (r.width.isSome && r.width == u.width))
      && decide (u.length + s.store.general.reserve ≤ r.remaining)
      && (u.kind == .strip || !s.strictHold u.surface)
      && !s.unitDamaged u
      && decide (s.unitsInUse ≤ Config.grantLimit)

/-- The slots of units, in their order. -/
def State.slotsOf (s : State) (ids : List Nat) : List Nat :=
  ids.filterMap fun id => (s.unit? id).bind PrintUnit.slot

/-- The removal a selection begins with: the order of every RUSH and STANDARD unit is read, and all units
of orders found DAMAGED go, with the figures entries of those orders (R43). A held trial follows. -/
def removeDamaged (s : State) : State :=
  let s1 := readSlots (s.slotsOf (s.queue.rush ++ s.queue.standard)) s
  let gone := (s1.queue.rush ++ s1.queue.standard).filter fun id =>
    (s1.unit? id).any fun u => s1.unitDamaged u
  let slots := s1.slotsOf gone
  let s2 := slots.foldl (fun s i => s.setFigures i none) s1
  runTrials (s2.removeQueued gone)

/-- The answer of a selection (3.7). -/
inductive Selection where
  | grant (id : Nat)
  | switch
  | none
  deriving DecidableEq, Repr

/-- The choice between the first eligible RUSH unit and the first eligible STANDARD unit, with the run count
after it (R50). -/
def grantChoice (rush standard : Option Nat) (runCount limit : Nat) : Option Nat × Nat :=
  match rush, standard with
  | some r, some s => if limit ≤ runCount then (some s, 0) else (some r, satUp runCount 32)
  | some r, none => (some r, 0)
  | none, some s => (some s, 0)
  | none, none => (none, runCount)

/-- A granted unit is taken out of the queue; its place becomes ENGINE, and the fall of the queue count
owes a held trial (R51). -/
def takeGranted (id : Nat) (s : State) : State :=
  ((s.leaveQueue [id]).modifyUnit id fun u => { u with place := .engine }).oweTrial

/-- The ordered cases of a selection after the removal of DAMAGED orders' units (R49). -/
def settleSelection (s : State) : Selection × State :=
  let here := s.engine.active
  let there := here.other
  let on := fun (m : Magazine) (ids : List Nat) => ids.find? (s.eligible m)
  if Config.grantLimit < s.unitsInUse then (.none, s)
  else if s.engine.selectPending && (s.engine.mag there).present then (.switch, s)
  else
    match on here s.queue.strip with
    | some id => (.grant id, takeGranted id s)
    | none =>
      if (on there s.queue.strip).isSome then (.switch, s)
      else
        let r := on here s.queue.rush
        let st := on here s.queue.standard
        if r.isNone && (on there s.queue.rush).isSome then (.switch, s)
        else
          match grantChoice r st s.queue.runCount s.store.general.starvationLimit with
          | (some id, run) =>
            (.grant id, takeGranted id { s with queue := { s.queue with runCount := run } })
          | (none, _) =>
            if (on there (s.queue.rush ++ s.queue.standard)).isSome then (.switch, s)
            else (.none, s)

/-- A selection (R49). -/
def select (s : State) : Selection × State := settleSelection (removeDamaged s)

end Sys2Proof.Machine
end

