-- ==== Sys2Proof/Machine/Store.lean ====
section
/-! DEFINITION. The Settings Store: placing and clamping written values, the write cycle, the store check
and a cycle cut short (R180 to R184). -/

namespace Sys2Proof.Machine

/-- The next entry a write goes to: the page's entries in order, passing over entry 63 and wrapping to the
page's first (R182). -/
def nextWritable (i : Nat) : Nat :=
  if i = 62 then 48 else if i % 16 = 15 then i - 15 else i + 1

/-- The entry the first value goes to: a start entry of 63 places it in entry 48 (R182). -/
def firstWritable (start : Nat) : Nat := if start = 63 then 48 else start

/-- The entries a write of `count` values goes to, in order (R182). -/
def writtenEntries : (start count : Nat) → List Nat
  | _, 0 => []
  | i, n + 1 => i :: writtenEntries (nextWritable i) n

/-- Values clamped and placed in order, a later one replacing an earlier one in the same entry, with
whether any clamp acted (R182). -/
def placeValues (name : SheetName) : List (Nat × Word32) → List Word32 × Bool → List Word32 × Bool
  | [], acc => acc
  | (i, w) :: rest, (entries, clamped) =>
    let (stored, acted) := clampEntry name i w
    placeValues name rest (entries.set i stored, clamped || acted)

/-- A store write: values placed, check value recomputed, write count raised with wrap, the page marked
written, and a write cycle begun (R182, R183). Answers whether any clamp acted. -/
def storeWrite (name : SheetName) (start : Nat) (values : List Word32) (s : State) : Bool × State :=
  let sheet := s.store.sheet name
  let at_ := writtenEntries (firstWritable start) values.length
  let (entries, clamped) := placeValues name (at_.zip values) (sheet.entries, false)
  let written : Sheet := { sheet with
    entries := sealEntries entries
    pages := sheet.pages.set (start / 16) true
    writes := (sheet.writes + 1) % 65536 }
  (clamped, { s with store := { s.store.setSheet name written with
    cycle := some { sheet := name, page := start / 16, before := sheet.entries } } })

/-- The entries a STORE_READ gives: from the start entry onward, wrapping within its page (R181). -/
def readEntries (sheet : Sheet) (start count : Nat) : List Word32 :=
  (List.range count).map fun k => sheet.entry (start / 16 * 16 + (start + k) % 16)

/-- A sheet at the end of a write cycle on it: a BAD sheet with all four pages written becomes good
(R184). -/
def Sheet.cycleEnded (sheet : Sheet) : Sheet :=
  { sheet with bad := sheet.bad && !sheet.pages.all id }

/-- One sheet's store check: a mismatch marks it BAD, raises STORE_SHEET_BAD and clears its page flags; a
match makes it good and keeps them (R184). -/
def checkSheet (name : SheetName) (s : State) : State :=
  let sheet := s.store.sheet name
  if checkAgrees sheet.entries then
    { s with store := s.store.setSheet name { sheet with bad := false } }
  else
    let bad : Sheet := { sheet with bad := true, pages := [false, false, false, false] }
    State.raise { s with store := s.store.setSheet name bad } .storeSheetBad name.code

/-- The store check of a start, over the sheets in R180's order (R184). -/
def storeCheck (s : State) : State :=
  [SheetName.size, .price, .calibration, .stations, .general].foldl (fun s n => checkSheet n s) s

/-- The entries of a sheet whose write cycle was cut short: of the written page and the check value, each
holds its old or its new value, which one is a free value; every other entry is as it was (R183, log
entry 6). -/
def tornEntries (draw page : Nat) (before after : List Word32) : List Word32 :=
  (List.range 64).map fun i =>
    if (i / 16 = page ∨ i = 63) ∧ Config.entryWritten draw i = true then after.getD i 0
    else before.getD i 0

/-- A running write cycle is cut short (R183). -/
def cutCycle (s : State) : State :=
  match s.store.cycle with
  | none => s
  | some c =>
    let sheet := s.store.sheet c.sheet
    { s.drawn with store := { s.store.setSheet c.sheet { sheet with
        entries := tornEntries s.draws c.page c.before sheet.entries } with cycle := none } }

/-- The SHEET_BAD hold reason stands while SIZE or CALIBRATION is BAD (R72). -/
def SettingsStore.holdsEngine (st : SettingsStore) : Bool := st.size.bad || st.calibration.bad

end Sys2Proof.Machine
end

