-- ==== Sys2Proof/Machine/Calibration.lean ====
section
/-! DEFINITION. The Calibration Unit: due state, the strip's reading at the cut and the lab-balance update
(chapter 9). -/

namespace Sys2Proof.Machine

/-- The due comparison of a surface: found due when not due already, the interval is not 0 and the counter
has reached it. CAL_DUE is raised and the queue signalled (R144). Not made while CALIBRATION is BAD. -/
def dueComparison (u : Nat) (s : State) : State :=
  let r := s.surface u
  let s1 := s.setSurface u { r with checkWaiting := false }
  let n := s.store.calibration.interval u
  if s.store.calibration.bad || r.due || n == 0 || decide (r.counter < n) then s1
  else ((s1.setSurface u { r with checkWaiting := false, due := true }).raise .calDue u).signal

/-- A unit exposed on a surface is counted unless it is VOID or the surface is due, and the due comparison
follows, at the end of a running write cycle if one delays its read (R143, R144). -/
def countPrint (u : Nat) (void : Bool) (s : State) : State :=
  let r := s.surface u
  if void || r.due then s
  else
    let s1 := s.setSurface u { r with counter := satUp r.counter 4000, checkWaiting := true }
    if s1.cycleRuns then s1 else dueComparison u s1

/-- The due comparisons made at the end of a write cycle: every surface when it wrote CALIBRATION, and
otherwise the surfaces whose comparison waits (R144, R183). They are made in ascending surface, so that CAL_DUE is
left with the highest surface newly found due as its detail (DESIGN CHOICE, log entry 37). -/
def dueComparisons (all : Bool) (s : State) : State :=
  (List.range 4).foldl
    (fun s u => if all || (s.surface u).checkWaiting then dueComparison u s else s) s

/-- The last result of a calibration that was abandoned (R149, R155). -/
def abandonedResult (cause : AbandonCause) (time : ShopTime) : LastResult :=
  { outcome := .abandoned, cause := some cause, time, readings := none, densities := none
    errors := none, steps := none, before := none, after := none
    clamps := { r := false, g := false, b := false } }

/-- A surface's calibration ends abandoned; no balance and no due state changes (R149, R155). -/
def abandonCalibration (u : Nat) (cause : AbandonCause) (s : State) : State :=
  s.setSurface u { s.surface u with last := some (abandonedResult cause s.shopTime) }

/-- The strip record is set. -/
def State.setStrip (s : State) (strip : StripRecord) : State :=
  { s with cal := { s.cal with strip } }

/-- A cut strip is handed over: blind or already abandoned, it is not read and its record is returned;
otherwise the conversions begin (R149, R150). -/
def stripHandOver (id : Nat) (blind : Bool) (s : State) : State :=
  match s.cal.strip with
  | .out u unit abandoned =>
    if unit ≠ id then s.releaseUnit id
    else if blind then (abandonCalibration u .blindCut ((s.setStrip .none).releaseUnit id))
    else if abandoned then (abandonCalibration u .spoiled ((s.setStrip .none).releaseUnit id))
    else { s with cal := { s.cal with strip := .reading u id 1 [], filter := .baseRed } }
  | _ => s.releaseUnit id

/-- The filter of a conversion 1..6 (R150). -/
def filterOf : Nat → Filter
  | 1 => .baseRed
  | 2 => .baseGreen
  | 3 => .baseBlue
  | 4 => .greyRed
  | 5 => .greyGreen
  | 6 => .greyBlue
  | _ => .noReading

/-- The density of a channel from its two readings (R151); a difference of 0 or below gives 0. -/
def density (base grey gain : Nat) : Nat := min 400 (roundHalfUp ((base - grey) * gain) 256)

/-- What the result forms for one channel (R151, R152). -/
structure ChannelResult where
  density : Int
  error   : Int
  steps   : Int
  before  : Int
  after   : Int
  clamped : Bool
  deriving DecidableEq, Repr

/-- The result of one channel `c` of a surface from the six readings (R151, R152). -/
def channelResult (cal : Sheet) (u c : Nat) (values : List Nat) : ChannelResult :=
  let d : Int := density (values.getD c 0) (values.getD (c + 3) 0) cal.gain
  let e := d - cal.aimDensity u c
  let steps := if e.natAbs ≤ cal.deadBand then 0 else roundHalfAway e cal.slope
  let before := cal.labBalance u c
  let after := clampInt (-40) 40 (before - steps)
  { density := d, error := e, steps, before, after, clamped := decide (after ≠ before - steps) }

/-- One figure of each of the three channels' results. -/
def channelsOf (r g b : ChannelResult) (figure : ChannelResult → Int) : Channels :=
  { r := figure r, g := figure g, b := figure b }

/-- A calibration fails when any error is beyond the tolerance (R152). -/
def beyondTolerance (cal : Sheet) (r g b : ChannelResult) : Bool :=
  decide (cal.tolerance < r.error.natAbs) || decide (cal.tolerance < g.error.natAbs)
    || decide (cal.tolerance < b.error.natAbs)

/-- The balances of an accepted result are written as one store write when any differs (R152). -/
def writeBalances (u : Nat) (r g b : ChannelResult) (s : State) : State :=
  if r.after = r.before ∧ g.after = g.before ∧ b.after = b.before then s
  else
    (storeWrite .calibration (16 + 3 * u)
      [BitVec.ofInt 32 r.after, BitVec.ofInt 32 g.after, BitVec.ofInt 32 b.after] s).2

/-- The result of a strip that is SETTLING with no write cycle running: failed with CAL_FAIL, or accepted
with the due state cleared and the moved balances written (R151, R152). -/
def takeResult (u : Nat) (values : List Nat) (s : State) : State :=
  let cal := s.store.calibration
  let r := channelResult cal u 0 values
  let g := channelResult cal u 1 values
  let b := channelResult cal u 2 values
  let of_ := channelsOf r g b
  let was := s.surface u
  let s1 := s.setStrip .none
  if beyondTolerance cal r g b then
    let failed : LastResult :=
      { outcome := .failed, cause := none, time := s.shopTime, readings := some values
        densities := some (of_ ChannelResult.density), errors := some (of_ ChannelResult.error)
        steps := none, before := none, after := none
        clamps := { r := false, g := false, b := false } }
    (s1.setSurface u { was with last := some failed }).raise .calFail u
  else
    let accepted : LastResult :=
      { outcome := .accepted, cause := none, time := s.shopTime, readings := some values
        densities := some (of_ ChannelResult.density), errors := some (of_ ChannelResult.error)
        steps := some (of_ ChannelResult.steps), before := some (of_ ChannelResult.before)
        after := some (of_ ChannelResult.after)
        clamps := { r := r.clamped, g := g.clamped, b := b.clamped } }
    let s2 := (writeBalances u r g b s1).setSurface u
      { was with counter := 0, due := false, last := some accepted }
    if was.due then s2.signal else s2

/-- A conversion ends with a value: the next one begins, or the sixth returns the strip's record and the
result is taken up, at once unless a write cycle delays its read (R150, R151). -/
def takeConversion (value : Nat) (s : State) : State :=
  match s.cal.strip with
  | .reading u id k values =>
    let all := values ++ [value]
    if k < 6 then
      { s with cal := { s.cal with
          strip := .reading u id (k + 1) all, filter := filterOf (k + 1) } }
    else
      let s1 := s.releaseUnit id
      let s2 := { s1 with cal := { s1.cal with strip := .settling u all, filter := .noReading } }
      if s2.cycleRuns then s2 else takeResult u all s2
  | _ => s

/-- A start or reset abandons a strip in whatever progress it stands: a reading's unit record is returned,
the last result is ABANDONED with cause RESET, and conversions stop (R155). -/
def resetCalibration (s : State) : State :=
  let s1 := match s.cal.strip with
    | .none => s
    | .out u _ _ => abandonCalibration u .reset s
    | .reading u id _ _ => abandonCalibration u .reset (s.releaseUnit id)
    | .settling u _ => abandonCalibration u .reset s
  { s1 with cal := { s1.cal with strip := .none, filter := .noReading } }

end Sys2Proof.Machine
end

