-- ==== Sys2Proof/Machine/Engine.lean ====
section
/-! DEFINITION. The Exposure Engine: boundaries and the answers of a selection, the unit start, the phases
and their lines, the image port, spoils in the engine, the hand-over, magazine changes (chapter 5). -/

namespace Sys2Proof.Machine

/-! ### Levels and lines of the head (R76, R90) -/

/-- One level on all three channels. -/
def HeadLevel.all (level : Nat) : HeadLevel := { r := level, g := level, b := level }

/-- Border tone: every channel's interval opened at drive level 0 (R76). -/
def borderTone : HeadOutput := .uniform (HeadLevel.all 0)

/-- A mark line: every channel's interval at drive level 1023 (R76). -/
def markTone : HeadOutput := .uniform (HeadLevel.all 1023)

/-- The active LUT bank (R90). -/
def Engine.activeLut (e : Engine) : LutBank := if e.activeBank = 0 then e.lut0 else e.lut1

/-- The levels a LUT bank gives for a pixel's codes (R90). -/
def LutBank.convert (bank : LutBank) (p : Pixel) : HeadLevel :=
  { r := bank.red.getD p.r.toNat 0, g := bank.green.getD p.g.toNat 0
    b := bank.blue.getD p.b.toNat 0 }

/-- The lines of the IMAGE phase: P - 2b, and 800 for a STRIP (R76). -/
def PrintUnit.imageLines (u : PrintUnit) : Nat :=
  if u.kind = .strip then 800 else u.print - 2 * u.border

/-- The lines of a phase for a unit (R76). -/
def PrintUnit.phaseLines (u : PrintUnit) : Phase → Nat
  | .lead => u.lead
  | .topBorder => u.border
  | .image => u.imageLines
  | .bottomBorder => u.border
  | .mark => u.mark

/-- The phases that follow a phase; from the unit start, all five (R76). -/
def phasesAfter : Option Phase → List Phase
  | none => [.lead, .topBorder, .image, .bottomBorder, .mark]
  | some .lead => [.topBorder, .image, .bottomBorder, .mark]
  | some .topBorder => [.image, .bottomBorder, .mark]
  | some .image => [.bottomBorder, .mark]
  | some .bottomBorder => [.mark]
  | some .mark => []

/-- The next phase of a unit; a phase of zero lines is passed over (R76). -/
def PrintUnit.nextPhase (u : PrintUnit) (phase : Option Phase) : Option Phase :=
  (phasesAfter phase).find? fun p => u.phaseLines p != 0

/-- Engine fields are changed. -/
def State.mapEngine (s : State) (f : Engine → Engine) : State := { s with engine := f s.engine }

/-- The record of the unit in the engine with its id. -/
def State.inEngine (s : State) : Option (Nat × PrintUnit) :=
  s.engine.current.bind fun id => (s.unit? id).map fun u => (id, u)

/-- A unit in the engine is spoiled (R79): the spoil is reported; at its first spoil the image requests are
forgotten, and a first-line wait ends with line 0 beginning at border tone. -/
def engineSpoil (s : State) : State :=
  match s.inEngine with
  | none => s
  | some (id, u) =>
    let s1 := spoilReport id s
    if u.spoiled then s1
    else s1.mapEngine fun e => { e with
      buffer1 := .empty, buffer2 := .empty
      head := if e.firstLineTimer then borderTone else e.head
      firstLineTimer := false }

/-- The contents of the buffer in which an image line is complete, with whether it is buffer 1. -/
def Engine.completeLine (e : Engine) (k : Nat) : Option (Bool × List Pixel) :=
  match e.buffer1, e.buffer2 with
  | .complete l pixels, other =>
    if l = k then some (true, pixels)
    else match other with
      | .complete l2 pixels2 => if l2 = k then some (false, pixels2) else none
      | _ => none
  | _, .complete l pixels => if l = k then some (false, pixels) else none
  | _, _ => none

/-- An image line of a sound print begins (R87): its buffer's contents go to the head through the active
LUT bank, and the line two ahead is requested into that buffer if it lies within IMAGE. A line that is not
complete is a feed underflow (R89). -/
def beginImageLine (k : Nat) (u : PrintUnit) (s : State) : State :=
  match s.engine.completeLine k with
  | some (first, pixels) =>
    let next := if k + 2 < u.imageLines then LineBuffer.requested (k + 2) else .empty
    s.mapEngine fun e => { e with
      head := .image (pixels.map e.activeLut.convert)
      buffer1 := if first then next else e.buffer1
      buffer2 := if first then e.buffer2 else next }
  | none =>
    ((engineSpoil s).raise .feedUnderflow (u.number.getD 0)).mapEngine fun e =>
      { e with head := borderTone }

/-- A line of a phase begins (R76, R79). -/
def beginLine (phase : Phase) (k : Nat) (s : State) : State :=
  let s1 := s.mapEngine fun e => { e with line := k }
  let head := fun (h : HeadOutput) => s1.mapEngine fun e => { e with head := h }
  match phase with
  | .lead => head .unlit
  | .topBorder => head borderTone
  | .bottomBorder => head borderTone
  | .mark => head markTone
  | .image =>
    match s1.inEngine with
    | none => s1
    | some (_, u) =>
      if u.spoiled then head borderTone
      else if u.kind = .strip then
        if k < 400 then head .unlit
        else head (.uniform (s1.engine.activeLut.convert { r := 128, g := 128, b := 128 }))
      else beginImageLine k u s1

/-- Whether entering a phase is the entry into the unit's lit phases (R92). -/
def PrintUnit.firstLit (u : PrintUnit) (phase : Phase) : Bool :=
  phase == .topBorder || (phase == .image && u.border == 0)

/-- A unit enters a phase (R76): entering its first lit phase under LAMP_LOW spoils it (R92); an unspoiled
print entering IMAGE requests lines 0 and 1 and waits for line 0 (R87); any other phase begins its first
line. -/
def enterPhase (phase : Phase) (s : State) : State :=
  let s1 := s.mapEngine fun e => { e with phase := some phase, line := 0 }
  match s1.inEngine with
  | none => s1
  | some (_, u) =>
    let s2 := if u.firstLit phase && s1.engine.holds.lampLow then engineSpoil s1 else s1
    let spoiled := (s2.inEngine.map fun (_, u) => u.spoiled).getD true
    if phase = .image ∧ u.kind ≠ .strip ∧ spoiled = false then
      s2.mapEngine fun e => { e with
        buffer1 := .requested 0
        buffer2 := if 1 < u.imageLines then .requested 1 else .empty
        firstLineTimer := true, head := .unlit }
    else beginLine phase 0 s2

/-! ### The unit start (R75) -/

/-- The line of an order that a unit prints, when the order is sound (R57, R58). -/
def State.unitLine (s : State) (u : PrintUnit) : Option Line :=
  (s.soundOrder u).bind fun o => u.position.bind fun p => o.lines[p - 1]?

/-- An order with a clamp reported on a line (R2, R65). -/
def Order.clampLine (o : Order) (position : Nat) : Order :=
  { o with clamped := true
           lines := o.lines.modify (position - 1) fun l => { l with clamped := true } }

/-- The start report of a PRINT or REPRINT unit, with its clamp report (R15, R65). -/
def reportStart (u : PrintUnit) (clamped : Bool) (s : State) : State :=
  match u.slot, s.soundOrder u with
  | some i, some o =>
    let o1 := if o.state = .queued then { o with state := .exposing } else o
    s.setOrder i (if clamped then o1.clampLine (u.position.getD 0) else o1)
  | _, _ => s

/-- The unit start, steps 1 to 6 (R75), with no write cycle running. -/
def completeStart (id : Nat) (s : State) : State :=
  match s.unit? id with
  | none => s
  | some u =>
    let s1 := match u.slot with
      | some i => readSlot i s
      | none => s
    let line := s1.unitLine u
    let exposure := dose s1.store.calibration u.surface
      ((line.map Line.corrections).getD Corrections.zero)
    let s2 := s1.setUnit id { u with exposure := some exposure }
    let magazine := s2.engine.active
    let r := s2.engine.mag magazine
    let s3 := s2.setMag magazine { r with remaining := r.remaining - u.length }
    let s4 := s3.mapEngine fun e => { e with
      handle := (line.map Line.handle).getD 0
      awaitingSettings := false
      activeBank := if e.swapPending then 1 - e.activeBank else e.activeBank
      swapPending := false }
    let s5 := reportStart u exposure.anyClamp s4
    match u.nextPhase none with
    | some phase => enterPhase phase s5
    | none => s5

/-- A granted unit's start is taken (R75); a running write cycle delays its first step (R57). -/
def beginStart (id : Nat) (s : State) : State :=
  let s1 := s.mapEngine fun e => { e with
    state := .exposing, phase := none, current := some id, line := 0, handle := 0, head := .unlit
    buffer1 := .empty, buffer2 := .empty, firstLineTimer := false }
  if s1.cycleRuns then s1.mapEngine fun e => { e with awaitingSettings := true }
  else completeStart id s1

/-! ### Magazine changes and boundaries (R71, R84) -/

/-- The switch time is read, the actuator driven toward the other magazine and the switch timer started
(R84, steps 2 to 4). -/
def startSwitchTimer (s : State) : State :=
  s.mapEngine fun e => { e with
    switchWaiting := false, switchTimer := some s.store.general.switchTime
    actuator := e.active.other }

/-- A magazine change begins (R84); a running write cycle delays the read of the switch time. A selection is made
only with no cycle running, in the same step, so no run takes the delay (DESIGN CHOICE, log entry 20). -/
def beginChange (s : State) : State :=
  let s1 := s.mapEngine fun e => { e with state := .switching, selectPending := false }
  if s1.cycleRuns then s1.mapEngine fun e => { e with switchWaiting := true }
  else startSwitchTimer s1

/-- A selection is made and its answer handled (R71). A grant and the read of the CALIBRATION sheet at its start are
one step, and so are a switch answer and the read of the switch time that begins the change (R84): no command comes
between them, and no write cycle begins there (DESIGN CHOICE, log entry 20). -/
def makeSelection (s : State) : State :=
  let (answer, s1) := select (s.mapEngine fun e => { e with selectionWaiting := false })
  match answer with
  | .grant id => beginStart id s1
  | .switch => beginChange s1
  | .none => s1

/-- A boundary (R71): HELD when any reason is present, otherwise IDLE and a selection, which waits on a
running write cycle. -/
def boundary (s : State) : State :=
  if s.engine.holds.isEmpty then
    let s1 := s.mapEngine fun e => { e with state := .idle }
    if s1.cycleRuns then s1.mapEngine fun e => { e with selectionWaiting := true }
    else makeSelection s1
  else s.mapEngine fun e => { e with state := .held }

/-- A hold reason is removed; when that empties the set while the engine is HELD a boundary is taken at once
(R72). -/
def removeHold (reason : HoldReason) (s : State) : State :=
  let s1 := s.mapEngine fun e => { e with holds := e.holds.put reason false }
  if s.engine.holds.has reason && s1.engine.holds.isEmpty && s1.engine.state == .held then
    boundary s1
  else s1

/-- An IDLE engine answers the queue's signal with a boundary, unless a selection waits already and meets
it (R48, R71). -/
def answerSignal (s : State) : State :=
  if s.queue.signal && s.engine.state == .idle && !s.engine.selectionWaiting then boundary s else s

/-- The end of a step's effects: the held trial that is owed, then the engine's answer to the queue's
signal, then the trial its grant owes (R13, R48, R51). -/
def settle (s : State) : State :=
  let s1 := runTrials (answerSignal (runTrials s))
  { s1 with queue := { s1.queue with signal := false } }

/-! ### Lines and the hand-over (R76, R77, R99) -/

/-- The figures a train entry takes from the GENERAL sheet (R99). -/
def cutFigures (general : Sheet) (mark : Word32) : CutFigures :=
  { expected := mark + BitVec.ofNat 32 general.transitLength, window := general.markWindow }

/-- The unit at its last MARK line is handed on (R77, R99): it joins the train's tail, with its figures
pending while a write cycle runs; a print not spoiled is reported as exposed; TRAIN_FULL is added when the
train holds 64; a boundary follows. -/
def handOver (id : Nat) (u : PrintUnit) (s : State) : State :=
  let mark := s.transit.path
  let figures := if s.cycleRuns then none else some (cutFigures s.store.general mark)
  let entry : TrainEntry := { unit := id, mark, figures }
  let s1 : State := { s with transit := { s.transit with train := s.transit.train ++ [entry] } }
  let s2 := s1.modifyUnit id fun u => { u with place := .train }
  let s3 := if u.kind = .strip ∨ u.spoiled = true then s2 else countPrint u.surface u.void s2
  let s4 := if s3.transit.train.length = Config.trainLimit then s3.addHold .trainFull else s3
  boundary (s4.mapEngine fun e => { e with
    current := none, phase := none, line := 0, head := .unlit })

/-- The end of a line period (R76): the paper advances one line, and the next line, the next phase or the
hand-over follows. -/
def endLine (s : State) : State :=
  match s.engine.phase, s.inEngine with
  | some phase, some (id, u) =>
    if s.engine.state = .exposing ∧ s.engine.firstLineTimer = false then
      let s1 := s.mapEngine fun e => { e with advances := e.advances + 1 }
      if s.engine.line + 1 < u.phaseLines phase then beginLine phase (s.engine.line + 1) s1
      else
        match u.nextPhase (some phase) with
        | some next => enterPhase next s1
        | none => handOver id u s1
    else s
  | _, _ => s

/-! ### The image port (R88, R89) -/

/-- A delivery fills the buffer in which its line is requested (R88). -/
def Engine.fill (e : Engine) (line : Nat) (pixels : List Pixel) : Engine :=
  if e.buffer1 = .requested line then { e with buffer1 := .complete line pixels }
  else if e.buffer2 = .requested line then { e with buffer2 := .complete line pixels }
  else e

/-- Whether a delivery is accepted: it names the unit in the engine and an outstanding line, with exactly
the pixel count of the request, the unit's width times 20 (R87, R88). -/
def deliveryAccepted (unit line : Nat) (pixels : List Pixel) (s : State) : Bool :=
  match s.inEngine with
  | some (id, u) =>
    id == unit
      && (decide (s.engine.buffer1 = .requested line) || decide (s.engine.buffer2 = .requested line))
      && pixels.length == u.width.getD 0 * 20
  | none => false

/-- A delivery on the image port (R88). Line 0 complete ends the first-line wait and begins at once (R87). -/
def takeDelivery (unit line : Nat) (pixels : List Pixel) (s : State) : State :=
  if deliveryAccepted unit line pixels s then
    let s1 := s.mapEngine fun e => e.fill line pixels
    if s1.engine.firstLineTimer && line == 0 then
      beginLine .image 0 (s1.mapEngine fun e => { e with firstLineTimer := false })
    else s1
  else s.mapEngine fun e => { e with discardedLines := satUp e.discardedLines 65535 }

/-- The first-line timer expires with line 0 incomplete: a feed underflow (R89). -/
def firstLineExpired (s : State) : State :=
  if s.engine.firstLineTimer then
    match s.inEngine with
    | some (_, u) => (engineSpoil s).raise .feedUnderflow (u.number.getD 0)
    | none => s
  else s

/-! ### The lamp supply (R92) -/

/-- Whether the unit in the engine is in a lit phase, the first-line wait included (R92). -/
def Engine.inLitPhase (e : Engine) : Bool :=
  e.phase == some .topBorder || e.phase == some .image || e.phase == some .bottomBorder

/-- The expiry of the lamp timer (R92): LAMP_LOW is added, a unit in a lit phase is spoiled, and LAMP_DIP is
raised with the order number of the unit the expiry spoiled, or 0. -/
def lampExpired (s : State) : State :=
  if s.engine.lampTimer then
    let s1 := (s.mapEngine fun e => { e with lampTimer := false }).addHold .lampLow
    if s1.engine.inLitPhase then
      let detail := match s1.inEngine with
        | some (_, u) => if u.spoiled then 0 else u.number.getD 0
        | none => 0
      (engineSpoil s1).raise .lampDip detail
    else s1.raise .lampDip 0
  else s

/-! ### Magazines (R80, R81) -/

/-- The width a magazine's width code gives (R80). -/
def widthOfCode : Nat → Option Nat
  | 1 => some 89
  | 2 => some 102
  | 3 => some 127
  | 4 => some 152
  | 5 => some 203
  | 6 => some 254
  | 7 => some 305
  | _ => none

/-- A paper-out event of a magazine (R81): its record as given, PAPER_OUT raised, and the unit in the engine
spoiled when the magazine is the active one and the engine EXPOSING. -/
def paperOut (m : Magazine) (r : MagazineRecord) (s : State) : State :=
  let s1 := (s.setMag m { r with remaining := 0 }).raise .paperOut (magazineCode m)
  if m = s.engine.active ∧ s.engine.state = .exposing then engineSpoil s1 else s1

end Sys2Proof.Machine
end

