-- ==== Sys2Proof/Machine/Sorter.lean ====
section
/-! DEFINITION. The Sorter: routing a cut print, bins and trays, completion, doors and hand-back
(chapter 6). -/

namespace Sys2Proof.Machine

/-- Sorter fields are changed. -/
def State.mapSorter (s : State) (f : Sorter → Sorter) : State := { s with sorter := f s.sorter }

/-- The gate is selected (R118). -/
def State.selectGate (s : State) (gate : Gate) : State := s.mapSorter fun b => { b with gate }

/-- The numbers of the bins, 1..24. -/
def binNumbers : List Nat := (List.range 24).map (· + 1)

/-- Whether a bin can be given to an order: FREE with its door CLOSED (R114). -/
def Bin.givable (b : Bin) : Bool := b.state == .free && !b.isOpen

/-- A print goes to the reject tray (R116, R117). -/
def rejectPrint (s : State) : State :=
  (s.selectGate .reject).mapSorter fun b => { b with reject := satUp b.reject 65535 }

/-- A good print that belongs to no order that can count it goes to the overflow tray (R115). -/
def unclaimedPrint (s : State) : State :=
  (s.selectGate .overflow).mapSorter fun b =>
    { b with overflow := satUp b.overflow 65535, unclaimed := satUp b.unclaimed 65535 }

/-- A good delivery is counted: D up, O down (R18). -/
def Order.deliver (o : Order) : Order :=
  { o with delivered := o.delivered + 1, outstanding := o.outstanding - 1 }

/-- A good print of an order's slot is placed (R114): in its FILLING bin below the capacity, in the lowest
FREE bin with its door closed, or in the overflow tray; the Order Table counts it (R18). -/
def placeGood (i : Nat) (o : Order) (s : State) : State :=
  let overflow := fun (s : State) =>
    ((s.selectGate .overflow).mapSorter fun b =>
        { b with overflow := satUp b.overflow 65535 }).setOrder i
      { o.deliver with trayCount := o.trayCount + 1, spill := true }
  match o.bin with
  | some n =>
    let b := s.bin n
    if b.state = .filling ∧ b.count < s.sorter.capacity then
      ((s.selectGate (.bin n)).setBin n { b with count := b.count + 1 }).setOrder i o.deliver
    else overflow s
  | none =>
    match binNumbers.find? fun n => (s.bin n).givable with
    | some n =>
      ((s.selectGate (.bin n)).setBin n { s.bin n with
          state := .filling, number := some o.number, slot := some i, count := 1
          opened := false }).setOrder i { o.deliver with bin := some n }
    | none => overflow s

/-- The order of a slot completes when a good delivery leaves it in EXPOSING with D = R: COMPLETE, its bin
READY with a clear flag, and the Price Unit started (R18, R119). -/
def completeIfDone (i : Nat) (s : State) : State :=
  match s.order? i with
  | some o =>
    if o.state = .exposing ∧ o.delivered = o.requested then
      let s1 := s.setOrder i { o with state := .complete }
      let s2 := match o.bin with
        | some n => s1.setBin n { s1.bin n with state := .ready, opened := false }
        | none => s1
      priceCompleted i s2
    else s
  | none => s

/-- A cut entry is routed by the first line of R113's table that applies, the gate selected, the reports
made and the unit's record returned (R113 to R118). -/
def routeCut (id : Nat) (blind : Bool) (s : State) : State :=
  match s.unit? id with
  | none => s
  | some u =>
    if u.kind = .strip then stripHandOver id blind (rejectPrint s)
    else
      let s1 := match u.slot with
        | some i => readSlot i s
        | none => s
      let s2 :=
        if u.void then voidGone u (rejectPrint s1)
        else if u.spoiled || blind then rejectPrint s1
        else
          match u.slot, s1.soundOrder u with
          | some i, some o => completeIfDone i (placeGood i o s1)
          | _, _ => unclaimedPrint s1
      s2.releaseUnit id

/-- A bin is handed back to the Sorter: its order goes, its flag is cleared and it becomes DISCARD
(R123). -/
def handBack (n : Nat) (s : State) : State :=
  s.setBin n { s.bin n with state := .discard, number := none, slot := none, opened := false }

/-- A bin becomes FREE, count 0 (R122, R123, R125). -/
def freeBin (n : Nat) (s : State) : State :=
  s.setBin n { s.bin n with
    state := .free, number := none, slot := none, count := 0, opened := false }

/-- A key is set on a READY order; with both keys set the slot is freed (R24). -/
def settleKeys (i : Nat) (o : Order) (s : State) : State :=
  if o.paid && o.collected then s.freeSlot i else s.setOrder i o

/-- A READY bin's door cycle collects its order (R122): READY sets COLLECTED and frees the bin; in any other
state the bin stays and its flag is cleared. -/
def collectByDoor (n : Nat) (s : State) : State :=
  let b := s.bin n
  let cleared := fun (s : State) => s.setBin n { s.bin n with opened := false }
  match b.slot with
  | none => cleared s
  | some i =>
    let s1 := readSlot i s
    match s1.order? i with
    | some o =>
      if o.state = .ready ∧ o.collected = false then
        settleKeys i { o with collected := true, bin := none } (freeBin n s1)
      else cleared s1
    | none => cleared s1

/-- An OPEN door event (R120 to R122). A report at the level held is no event. -/
def doorOpens (n : Nat) (s : State) : State :=
  let b := s.bin n
  if n = 0 ∨ 24 < n ∨ b.isOpen = true then s
  else
    let s1 := s.setBin n { b with isOpen := true, opened := b.opened || b.state == .ready }
    match b.state, b.slot with
    | .filling, some i =>
      let s2 := readSlot i s1
      let s3 := s2.modifyOrder i fun o =>
        if o.state = .damaged then o else { o with disturbed := true }
      s3.raise .binDisturbed n
    | .filling, none => s1.raise .binDisturbed n
    | _, _ => s1

/-- A CLOSE door event (R120, R122, R123). -/
def doorCloses (n : Nat) (s : State) : State :=
  let b := s.bin n
  if n = 0 ∨ 24 < n ∨ b.isOpen = false then s
  else
    let s1 := s.setBin n { b with isOpen := false }
    match b.state with
    | .ready => if b.opened then collectByDoor n s1 else s1
    | .discard => freeBin n s1
    | _ => s1

end Sys2Proof.Machine
end

