-- ==== Sys2Proof/Machine/Transit.lean ====
section
/-! DEFINITION. The Transit Tracker: path positions, windows, marks, normal and blind cuts, and figures set
after a write cycle (chapter 6). -/

namespace Sys2Proof.Machine

/-- Position p is at or after position q: the forward distance is below 2^31 (1.8, R97). -/
def atOrAfter (p q : Word32) : Bool := decide ((p - q).toNat < 2 ^ 31)

/-- The first position of an entry's window, E - W (R100). -/
def CutFigures.opens (f : CutFigures) : Word32 := f.expected - BitVec.ofNat 32 f.window

/-- The last position of an entry's window, E + W (R100, R102). -/
def CutFigures.closes (f : CutFigures) : Word32 := f.expected + BitVec.ofNat 32 f.window

/-- Whether a position lies in a window, both ends included (6.4). -/
def CutFigures.covers (f : CutFigures) (p : Word32) : Bool :=
  atOrAfter p f.opens && (!atOrAfter p f.closes || p == f.closes)

/-- Transit fields are changed. -/
def State.mapTransit (s : State) (f : Transit → Transit) : State := { s with transit := f s.transit }

/-- The head entry leaves the train, which removes TRAIN_FULL (R101, R109). -/
def headLeaves (s : State) : State :=
  removeHold .trainFull (s.mapTransit fun t => { t with train := t.train.tail })

/-- A normal cut of the head entry (R101). -/
def normalCut (e : TrainEntry) (s : State) : State :=
  let s1 := s.mapTransit fun t =>
    { t with cutterCommands := t.cutterCommands + 1, consecutiveBlind := 0 }
  routeCut e.unit false (headLeaves s1)

/-- The consecutive-blind count rises; at 2 or more the engine is held and CUTTER_FAULT raised with the
unit's order number, or 0 for a strip (R104). -/
def countBlind (id : Nat) (s : State) : State :=
  let s1 := s.mapTransit fun t => { t with consecutiveBlind := satUp t.consecutiveBlind 255 }
  if 2 ≤ s1.transit.consecutiveBlind then
    (s1.addHold .cutterFault).raise .cutterFault (((s.unit? id).bind PrintUnit.number).getD 0)
  else s1

/-- A blind cut of the head entry (R102). -/
def blindCut (e : TrainEntry) (s : State) : State :=
  let s1 := s.mapTransit fun t => { t with cutterCommands := t.cutterCommands + 1 }
  let s2 := countBlind e.unit (spoilReport e.unit s1)
  let s3 := s2.mapTransit fun t => { t with blindCuts := satUp t.blindCuts 65535 }
  routeCut e.unit true (headLeaves s3)

/-- Whether the path position has reached the head's E + W; false while the figures are pending. -/
def headExpired (s : State) : Bool :=
  match s.transit.train.head?.bind TrainEntry.figures with
  | some f => atOrAfter s.transit.path f.closes
  | none => false

/-- Every head whose window the path position has already reached expires at once (R102). The first argument
bounds the cuts; the train is shorter after each. -/
def expireHeads : Nat → State → State
  | 0, s => s
  | n + 1, s =>
    match s.transit.train with
    | [] => s
    | e :: _ => if headExpired s then expireHeads n (blindCut e s) else s

/-- All expired heads of the train. -/
def expireAll (s : State) : State := expireHeads s.transit.train.length s

/-- A stray mark (R100). -/
def strayMark (s : State) : State :=
  s.mapTransit fun t => { t with strayMarks := satUp t.strayMarks 65535 }

/-- A mark at a position is decided against the head's window (R100); while the head's figures are pending
it waits. -/
def decideMark (p : Word32) (s : State) : State :=
  match s.transit.train with
  | [] => strayMark s
  | e :: _ =>
    match e.figures with
    | none => s.mapTransit fun t => { t with waitingMarks := t.waitingMarks ++ [p] }
    | some f => if f.covers p then normalCut e s else strayMark s

/-- Whether the path position is past the head's E + W, so that its window has closed (R100, R103). -/
def headPast (s : State) : Bool :=
  match s.transit.train.head?.bind TrainEntry.figures with
  | some f => atOrAfter s.transit.path f.closes && s.transit.path != f.closes
  | none => false

/-- A mark event (R100, R103): a window the path position has passed expires first; at E + W itself the mark
is in the window; a new head already expired is cut blind after the decision (R102). -/
def takeMark (s : State) : State :=
  let s1 := if headPast s then expireAll s else s
  let cut := decideMark s1.transit.path s1
  if cut.transit.train.length < s1.transit.train.length then expireAll cut else cut

/-- The pending figures of the train's entries are set from the GENERAL sheet, the waiting marks decided in
their order, and expired heads cut (R99, R100, R102). -/
def setPendingFigures (s : State) : State :=
  let s1 := s.mapTransit fun t => { t with
    waitingMarks := []
    train := t.train.map fun e => match e.figures with
      | some _ => e
      | none => { e with figures := some (cutFigures s.store.general e.mark) } }
  expireAll (s.transit.waitingMarks.foldl (fun s p => decideMark p s) s1)

end Sys2Proof.Machine
end

