-- ==== Sys2Proof/Machine/Orders.lean ====
section
/-! DEFINITION. The Order Table and the Shop Clock: numbering, the requests of chapter 2, cancellation, late
checks and the draft timeout. A request's rule answers a `Reply`: a status with the items its rule names, or
that it waits on a store write cycle. -/

namespace Sys2Proof.Machine

/-- The answer of an owning block to a request (R162): a status and the response items, or a wait on a write
cycle. `wait` says whether the request's access already found its order DAMAGED. -/
inductive Reply where
  | answer (status : Status) (body : List Byte)
  | wait (damaged : Bool)
  deriving DecidableEq, Repr

/-- A response with status OK. -/
def okay (body : List Byte) (s : State) : Reply × State := (.answer .ok body, s)

/-- A refusal, whose body is empty (R163). -/
def refuse (status : Status) (s : State) : Reply × State := (.answer status [], s)

/-- What a request that names an order finds (R5). -/
inductive Named where
  | noOrder
  | damaged (slot : Nat) (order : Order)
  | order (slot : Nat) (order : Order)
  deriving DecidableEq, Repr

/-- Whether the named order was found DAMAGED. -/
def Named.isDamaged : Named → Bool
  | .damaged .. => true
  | _ => false

/-- The slot of a named order is found and read through the check code (R5, R177); `touch` sets a DRAFT's
idle seconds to 0 (R11). -/
def lookUp (number : Nat) (touch : Bool) (s : State) : Named × State :=
  match s.findOrder number with
  | none => (.noOrder, s)
  | some i =>
    let s1 := readSlot i s
    match s1.order? i with
    | none => (.noOrder, s1)
    | some o =>
      if o.state = .damaged then (.damaged i o, s1)
      else if touch ∧ o.state = .draft then
        let o1 := { o with idle := 0 }
        (.order i o1, s1.setOrder i o1)
      else (.order i o, s1)

/-! ### Opening (R4, R6) -/

/-- The order number after a number, wrapping from 9999 to 1 (R4). -/
def nextNumber (n : Nat) : Nat := if 9999 ≤ n then 1 else n + 1

/-- The first number, counting upward from one with wrap, that no live slot holds (R4). The first argument
bounds the search; at most 63 numbers are held when one is sought. -/
def freeNumber (s : State) : Nat → Nat → Nat
  | 0, n => n
  | k + 1, n => if (s.findOrder n).isSome then freeNumber s k (nextNumber n) else n

/-- The lowest FREE slot of those listed, each FREE slot's state word read on the way (R6, R178). The live slots that the
seek passes over are not read through the check code (log entry 33). -/
def takeFreeSlot : List Nat → State → Option Nat × State
  | [], s => (none, s)
  | i :: rest, s =>
    if (s.order? i).isSome then takeFreeSlot rest s
    else
      let s1 := readFreeSlot i s
      if (s1.order? i).isSome then takeFreeSlot rest s1 else (some i, s1)

/-- Whether a customer tag can be taken: 1..12 printable characters (R6). -/
def tagValid (tag : List Byte) : Bool :=
  decide (1 ≤ tag.length) && decide (tag.length ≤ 12)
    && tag.all fun ch => decide (0x20 ≤ ch.toNat) && decide (ch.toNat ≤ 0x7E)

/-- A new order in DRAFT (R1's initial values). -/
def draftOrder (number owner : Nat) (cls : OrderClass) (promised : Option Nat)
    (tag : Option (List Byte)) : Order :=
  { number, owner, tag, cls, queueClass := cls, promised, state := .draft, lines := []
    requested := 0, delivered := 0, outstanding := 0, spoils := 0, trayCount := 0, bin := none
    late := false, spill := false, disturbed := false, clamped := false, price := none
    paid := false, collected := false, idle := 0, voids := none }

/-- OPEN_ORDER (R6). -/
def decideOpenOrder (source cls : Nat) (promise : Option Nat) (tag : Option (List Byte)) (s : State) :
    Reply × State :=
  match OrderClass.ofCode cls with
  | none => refuse .badValue s
  | some c =>
    if (promise.any fun p => decide (10079 < p)) || (tag.any fun t => !tagValid t) then
      refuse .badValue s
    else
      match takeFreeSlot slotIndexes s with
      | (none, s1) => refuse .full s1
      | (some i, s1) =>
        let number := freeNumber s1 Config.slotCount s1.orders.nextNumber
        let s2 := (s1.freeSlot i).setOrder i (draftOrder number source c promise tag)
        okay (item16 number ++ item8 i)
          { s2 with orders := { s2.orders with nextNumber := nextNumber number } }

/-! ### Line edits (R7 to R10) -/

/-- The corrections' clamp of a line edit (R8). -/
def clampCorrection (x : Int) : Int := clampInt (-12) 12 x

/-- Whether any correction of a line is clamped (R8). -/
def lineClamps (l : LineItem) : Bool :=
  [l.d, l.c, l.m, l.y].any fun x => decide (clampCorrection x ≠ x)

/-- The line record a full line gives: corrections clamped, CLAMPED clear (R8). -/
def lineRecord (l : LineItem) (border : Border) : Line :=
  { size := l.size, surface := l.surface, quantity := l.quantity, border
    d := clampCorrection l.d, c := clampCorrection l.c, m := clampCorrection l.m
    y := clampCorrection l.y, handle := l.handle, clamped := false }

/-- The line record a full line gives when every field is in range (R8, test 5). -/
def validLine (size : Sheet) (l : LineItem) : Option Line :=
  if l.quantity = 0 ∨ 99 < l.quantity ∨ 15 < l.size ∨ size.printLength l.size = 0 ∨ 3 < l.surface
  then none
  else (Border.ofCode l.border).map (lineRecord l)

/-- The status of a line edit that is taken (R8). -/
def lineStatus (l : LineItem) : Status := if lineClamps l then .okClamped else .ok

/-- ADD_LINE (R8), by the tests of R7. A running write cycle delays the decision; `resumed` says that it has
waited already. -/
def decideAddLine (resumed : Bool) (number : Nat) (item : LineItem) (s : State) : Reply × State :=
  let (named, s1) := lookUp number (!resumed) s
  if s1.cycleRuns then (.wait named.isDamaged, s1)
  else
    match named with
    | .noOrder => refuse .noOrder s1
    | .damaged .. => refuse .damaged s1
    | .order i o =>
      if o.state ≠ .draft then refuse .wrongState s1
      else if s1.store.size.bad then refuse .sheetBad s1
      else
        match validLine s1.store.size item with
        | none => refuse .badValue s1
        | some l =>
          if 12 ≤ o.lines.length ∨ 400 < o.requested + l.quantity then refuse .tooMany s1
          else
            let o1 := { o with lines := o.lines ++ [l], requested := o.requested + l.quantity }
            (.answer (lineStatus item) (item8 o1.lines.length ++ item16 o1.requested), s1.setOrder i o1)

/-- CHANGE_LINE (R9), by the tests of R7. -/
def decideChangeLine (resumed : Bool) (number position : Nat) (item : LineItem) (s : State) :
    Reply × State :=
  let (named, s1) := lookUp number (!resumed) s
  if s1.cycleRuns then (.wait named.isDamaged, s1)
  else
    match named with
    | .noOrder => refuse .noOrder s1
    | .damaged .. => refuse .damaged s1
    | .order i o =>
      if o.state ≠ .draft then refuse .wrongState s1
      else if s1.store.size.bad then refuse .sheetBad s1
      else if position = 0 ∨ o.lines.length < position then refuse .badValue s1
      else
        match validLine s1.store.size item with
        | none => refuse .badValue s1
        | some l =>
          let lines := o.lines.set (position - 1) l
          if 400 < totalQuantity lines then refuse .tooMany s1
          else
            let o1 := { o with
              lines, requested := totalQuantity lines
              clamped := o.clamped && lines.any Line.clamped }
            (.answer (lineStatus item) (item16 o1.requested), s1.setOrder i o1)

/-- DROP_LINE (R10): R7's tests without test 4, and no wait. -/
def decideDropLine (number position : Nat) (s : State) : Reply × State :=
  let (named, s1) := lookUp number true s
  match named with
  | .noOrder => refuse .noOrder s1
  | .damaged .. => refuse .damaged s1
  | .order i o =>
    if o.state ≠ .draft then refuse .wrongState s1
    else if position = 0 ∨ o.lines.length < position then refuse .badValue s1
    else
      let lines := o.lines.eraseIdx (position - 1)
      let o1 := { o with lines, requested := totalQuantity lines }
      okay (item8 lines.length ++ item16 o1.requested) (s1.setOrder i o1)

/-! ### Submission (R12 to R14) -/

/-- The order of a slot joins the tail of the held list (R12). -/
def joinHeld (i : Nat) (o : Order) (s : State) : State :=
  let s1 := s.setOrder i { o with state := .held, idle := 0 }
  { s1 with orders := { s1.orders with heldList := s1.orders.heldList ++ [i] } }

/-- SUBMIT (R12). -/
def decideSubmit (resumed : Bool) (number : Nat) (s : State) : Reply × State :=
  let (named, s1) := lookUp number (!resumed) s
  if s1.cycleRuns then (.wait named.isDamaged, s1)
  else
    match named with
    | .noOrder => refuse .noOrder s1
    | .damaged .. => refuse .damaged s1
    | .order i o =>
      if o.state ≠ .draft ∨ o.lines = [] then refuse .wrongState s1
      else if s1.store.size.bad then refuse .sheetBad s1
      else
        match unusedSizeLine s1.store.size o.lines with
        | some position => (.answer .badValue (item8 position), s1)
        | none =>
          if s1.orders.heldList = [] ∧ s1.hasRoom o.requested = true then
            okay (item8 OrderState.queued.code) (admitOrder i o s1)
          else okay (item8 OrderState.held.code) (joinHeld i o s1)

/-- WITHDRAW (R14). -/
def decideWithdraw (number : Nat) (s : State) : Reply × State :=
  let (named, s1) := lookUp number true s
  match named with
  | .noOrder => refuse .noOrder s1
  | .damaged .. => refuse .damaged s1
  | .order i o =>
    if o.state = .held then
      okay [] ((s1.leaveHeldList i).setOrder i { o with state := .draft, idle := 0 })
    else refuse .wrongState s1

/-! ### Cancellation (R20 to R23) -/

/-- The items of a CANCEL's response: freed, or cancelling (2.4). -/
def freedItem : List Byte := item8 0
def cancellingItem : List Byte := item8 1

/-- The units in flight of an order, with how many of them O counts (R3, R21). -/
def inFlightOf (i number : Nat) (s : State) : List Nat :=
  s.inFlight.filter fun id => (s.unit? id).any fun u => u.isOf i number

def countedInFlight (ids : List Nat) (s : State) : Nat :=
  (ids.filter fun id => (s.unit? id).any fun u => !u.spoiled && !u.void).length

/-- Units are marked VOID (R21). -/
def markVoid (ids : List Nat) (s : State) : State :=
  ids.foldl (fun s id => s.modifyUnit id fun u => { u with void := true }) s

/-- A slot's order gives its bin, if it holds one, to the Sorter (R21, R23). -/
def giveBackBin (o : Order) (s : State) : State :=
  match o.bin with
  | some n => handBack n s
  | none => s

/-- The four steps of a CANCEL on an order whose units are admitted (R20, R21). -/
def cancelUnits (i : Nat) (o : Order) (s : State) : Reply × State :=
  let queued := s.queuedWhere fun u => u.isOf i o.number
  let s1 := s.removeQueued queued
  let flight := inFlightOf i o.number s1
  let s2 := giveBackBin o (markVoid flight s1)
  if flight.isEmpty then okay freedItem (s2.freeSlot i)
  else
    okay cancellingItem (s2.setOrder i { o with
      state := .cancelling, bin := none, voids := some flight.length
      outstanding := o.outstanding - queued.length - countedInFlight flight s1 })

/-- CANCEL (R20 to R23). -/
def decideCancel (number : Nat) (s : State) : Reply × State :=
  let (named, s1) := lookUp number true s
  match named with
  | .noOrder => refuse .noOrder s1
  | .damaged .. => refuse .damaged s1
  | .order i o =>
    match o.state with
    | .draft => okay freedItem (s1.freeSlot i)
    | .held => okay freedItem ((s1.leaveHeldList i).freeSlot i)
    | .queued | .exposing | .fault => cancelUnits i o s1
    | .complete => okay freedItem ((giveBackBin o s1).freeSlot i)
    | .ready =>
      if o.paid then refuse .wrongState s1
      else okay freedItem ((giveBackBin o s1).freeSlot i)
    | .cancelling => okay cancellingItem s1
    | .damaged => refuse .damaged s1

/-! ### Reading and finding (R26, R27) -/

/-- A line record in READ_ORDER's response (R26). -/
def itemRecord (l : Line) : List Byte :=
  item8 l.size ++ item8 l.surface ++ item8 l.quantity ++ item8 l.border.code
    ++ itemInt8 l.d ++ itemInt8 l.c ++ itemInt8 l.m ++ itemInt8 l.y ++ itemWord l.handle
    ++ itemFlag l.clamped

/-- A price record in a response (R136). -/
def itemPrice (p : PriceRecord) : List Byte :=
  item32 p.subtotal ++ item32 p.rushAdd ++ item32 p.lateDiscount ++ item32 p.total
    ++ item16 p.writeCount

/-- The position of a slot in the held list, from 1 at the head (R26). -/
def heldPosition (s : State) (i : Nat) : Option Nat :=
  (s.orders.heldList.findIdx? (· == i)).map (· + 1)

/-- READ_ORDER's response items (R26): the slot, the fields of R1 in the table's order, the number of lines,
the held position and the void count. -/
def orderItems (s : State) (i : Nat) (o : Order) : List Byte :=
  item8 i ++ item16 o.number ++ item8 o.owner ++ itemOption itemTag o.tag
    ++ item8 o.cls.code ++ item8 o.queueClass.code ++ itemOption item16 o.promised
    ++ item8 o.state.code ++ itemList8 itemRecord o.lines
    ++ item16 o.requested ++ item16 o.delivered ++ item16 o.outstanding ++ item16 o.spoils
    ++ item16 o.trayCount ++ itemOption item8 o.bin
    ++ itemFlag o.late ++ itemFlag o.spill ++ itemFlag o.disturbed ++ itemFlag o.clamped
    ++ itemOption itemPrice o.price ++ itemFlag o.paid ++ itemFlag o.collected
    ++ itemOption item16 (if o.state = .draft then some o.idle else none)
    ++ item8 o.lines.length
    ++ itemOption item8 (if o.state = .held then heldPosition s i else none)
    ++ itemOption item8 (if o.state = .cancelling then o.voids else none)

/-- READ_ORDER (R26); a DAMAGED order is answered with its slot index and number (R25). -/
def decideReadOrder (number : Nat) (s : State) : Reply × State :=
  let (named, s1) := lookUp number true s
  match named with
  | .noOrder => refuse .noOrder s1
  | .damaged i o => (.answer .damaged (item8 i ++ item16 o.number), s1)
  | .order i o => okay (orderItems s1 i o) s1

/-- The order access of a station's STATIONS entry: 0 NONE, 1 OWN, 2 READ_ANY, 3 ANY (R167, R180). -/
def State.orderAccess (s : State) (station : Nat) : Nat :=
  ((s.store.stations.entry (station - 1)).extractLsb' 1 2).toNat

/-- Whether a station's rights limit it to the orders it owns (R27, R168). -/
def State.ownOnly (s : State) (station : Nat) : Bool :=
  s.link.lab != some station && s.orderAccess station == 1

/-- Whether a selector of FIND_ORDERS is in range (R27). -/
def selectorValid : Selector → Bool
  | .tag t => decide (1 ≤ t.length) && decide (t.length ≤ 12)
  | .state n => decide (n ≤ 8)
  | .owner n => decide (1 ≤ n) && decide (n ≤ 31)

/-- Whether an order matches a selector (R27). -/
def selectorTakes (sel : Selector) (o : Order) : Bool :=
  match sel with
  | .tag t => o.state != .damaged && o.tag == some t
  | .state n => o.state.code == n && (o.state != .damaged || o.number != 0)
  | .owner n => o.state != .damaged && o.owner == n

/-- A number put into an ascending list. -/
def insertNumber (n : Nat) : List Nat → List Nat
  | [] => [n]
  | m :: rest => if n ≤ m then n :: m :: rest else m :: insertNumber n rest

/-- The live orders, in slot order. -/
def State.liveOrders (s : State) : List Order := s.orders.slots.filterMap id

/-- The numbers FIND_ORDERS takes, ascending (R27). For an OWN station no DAMAGED order counts as owned: its
owner can not be relied upon (R25), and R27 does not say (log entry 34). -/
def foundNumbers (source : Nat) (sel : Selector) (start : Nat) (s : State) : List Nat :=
  ((s.liveOrders.filter fun o =>
      selectorTakes sel o && decide (start < o.number)
        && (!s.ownOnly source || (o.state != .damaged && o.owner == source))).map
    Order.number).foldr insertNumber []

/-- FIND_ORDERS (R27). -/
def decideFindOrders (source : Nat) (sel : Selector) (start : Nat) (s : State) : Reply × State :=
  if !selectorValid sel || decide (9999 < start) then refuse .badValue s
  else
    let s1 := readSlots slotIndexes s
    let found := foundNumbers source sel start s1
    okay (itemList8 item16 (found.take 16) ++ itemFlag (decide (16 < found.length))
      ++ item8 s1.liveOrders.length ++ item16 s1.orders.discarded) s1

/-! ### The clock and late checks (R28 to R30) -/

/-- Whether an order is made LATE at a minute (R30). -/
def Order.dueLate (o : Order) (minute : Nat) : Bool :=
  (o.state == .held || o.state == .queued || o.state == .exposing || o.state == .fault)
    && !o.late && o.promised.any fun p => decide ((minute + 10080 - p) % 10080 < 1440)

/-- The late check of one slot (R30): LATE set, ORDER_LATE raised, and a STANDARD order promoted. R30
"examines the live slots" and says that five states "are not examined"; the model reads every live slot through
the check code, since the state that decides stands in the slot (log entry 33). -/
def lateSlot (i : Nat) (s : State) : State :=
  let s1 := readSlot i s
  match s1.order? i with
  | some o =>
    if o.dueLate s1.clock.minute then
      let s2 := (s1.setOrder i { o with late := true, queueClass := .rush }).raise
        .orderLate o.number
      if o.queueClass = .standard then (promoteUnits i o.number s2).2 else s2
    else s1
  | none => s1

/-- A late check, made only while the clock's set flag is set, in ascending slot index (R30). -/
def lateCheck (s : State) : State :=
  if s.clock.isSet then slotIndexes.foldl (fun s i => lateSlot i s) s else s

/-- SET_CLOCK (R29). -/
def decideSetClock (minute second : Nat) (s : State) : Reply × State :=
  if 10079 < minute ∨ 59 < second then refuse .badValue s
  else
    okay [] (lateCheck { s with clock := { s.clock with minute, second, isSet := true } })

/-- READ_CLOCK (R28). -/
def decideReadClock (s : State) : Reply × State := okay (itemTime s.shopTime) s

/-- A second: the seconds rise, and when they pass 59 they return to 0, the minute rises with its own wrap
and a minute event follows (R28). -/
def ShopClock.tick (c : ShopClock) : ShopClock :=
  if 59 ≤ c.second then
    { c with second := 0, minute := if 10079 ≤ c.minute then 0 else c.minute + 1
             minuteDue := true }
  else { c with second := c.second + 1 }

/-- A DRAFT's idle seconds rise (R11). -/
def idleSlot (i : Nat) (s : State) : State :=
  match s.order? i with
  | some o =>
    if o.state = .draft then
      (readSlot i s).modifyOrder i fun o =>
        if o.state = .draft then { o with idle := satUp o.idle 3600 } else o
    else s
  | none => s

/-- The second event of the Order Table: every DRAFT's idle seconds rise, and their comparison with the
draft timeout is due (R11). -/
def idleSeconds (s : State) : State :=
  let s1 := slotIndexes.foldl (fun s i => idleSlot i s) s
  { s1 with orders := { s1.orders with draftCheckDue := true } }

/-- A DRAFT at or above the draft timeout is freed, and the discarded-draft count rises (R11). The idle
seconds compared are read through the check code, an access by R177's "any reading or changing of the slot by
any block" although its list names only their counting (log entry 33). -/
def timeoutSlot (i : Nat) (s : State) : State :=
  if (s.order? i).any fun o => o.state == .draft then
    let s1 := readSlot i s
    if (s1.order? i).any fun o =>
        o.state == .draft && decide (s1.store.general.draftTimeout * 60 ≤ o.idle) then
      let s2 := s1.freeSlot i
      { s2 with orders := { s2.orders with discarded := satUp s2.orders.discarded 65535 } }
    else s1
  else s

/-- The comparison that a second event made due, which waits for the end of a running write cycle (R11). -/
def draftTimeouts (s : State) : State :=
  if s.orders.draftCheckDue && !s.cycleRuns then
    let s1 := slotIndexes.foldl (fun s i => timeoutSlot i s) s
    { s1 with orders := { s1.orders with draftCheckDue := false } }
  else s

/-! ### Faults and promotion (R17, R41, R45) -/

/-- RETRY_FAULT (R17, R41). -/
def decideRetryFault (number : Nat) (s : State) : Reply × State :=
  let (named, s1) := lookUp number true s
  match named with
  | .noOrder => refuse .noOrder s1
  | .damaged .. => refuse .damaged s1
  | .order i o =>
    if o.state ≠ .fault then refuse .wrongState s1
    else
      let e := (s1.figures? i).getD { figures := [], missing := [] }
      if s1.hasRoom e.missing.length then
        let (ids, s2) := s1.makeUnits (retryUnits i o e)
        let s3 := (s2.joinHead o.queueClass ids).setFigures i (some { e with missing := [] })
        okay (item16 e.missing.length) (s3.setOrder i { o with
          state := .exposing, outstanding := o.outstanding + e.missing.length })
      else refuse .full s1

/-- PROMOTE (R45). -/
def decidePromote (number : Nat) (s : State) : Reply × State :=
  let (named, s1) := lookUp number false s
  match named with
  | .noOrder => refuse .noOrder s1
  | .damaged .. => refuse .damaged s1
  | .order i o =>
    if o.state = .held ∨ o.state = .queued ∨ o.state = .exposing ∨ o.state = .fault then
      if o.queueClass = .rush then okay (item16 0) s1
      else
        let (moved, s2) := promoteUnits i o.number (s1.setOrder i { o with queueClass := .rush })
        okay (item16 moved) s2
    else refuse .wrongState s1

/-- A unit's item in READ_QUEUE's list (R52). -/
def queueItem (s : State) (position id : Nat) : List Byte :=
  match s.unit? id with
  | none => []
  | some u =>
    let section_ := if s.queue.strip.contains id then 0 else if s.queue.rush.contains id then 1 else 2
    item16 position ++ item8 section_ ++ item16 id ++ item8 u.kind.code
      ++ itemOption item16 u.number ++ itemOption item8 u.position ++ itemOption item8 u.copy
      ++ item8 u.lineage ++ item8 u.surface ++ itemOption item16 u.width ++ item16 u.length

/-- The positions of the queue from a starting one, of all units or of one order's (R52). -/
def queuePositions (s : State) (start : Nat) (order : Option (Nat × Nat)) : List (Nat × Nat) :=
  ((s.queue.ids.zipIdx 1).map fun (id, position) => (position, id)).filter fun (position, id) =>
    decide (start ≤ position) &&
      match order with
      | none => true
      | some (i, number) => (s.unit? id).any fun u => u.isOf i number

/-- The order at the head of the held list is read through the check code, for the number that READ_QUEUE reports of
it: one found DAMAGED leaves the list at once, and the next head is read (R25, R177, log entry 33). -/
def readHeldHead : List Nat → State → State
  | [], s => s
  | i :: rest, s =>
    let s1 := readSlot i s
    if s1.orders.heldList.head? = some i then s1 else readHeldHead rest s1

/-- READ_QUEUE's response items (R52). -/
def queueItems (s : State) (start : Nat) (order : Option (Nat × Nat)) : List Byte :=
  let summary :=
    item8 s.queue.strip.length ++ item16 s.queue.rush.length ++ item16 s.queue.standard.length
      ++ item16 s.queueCount ++ item8 s.inFlight.length ++ item16 s.unitsInUse
      ++ item8 s.queue.runCount ++ item8 s.store.general.starvationLimit
      ++ item8 s.orders.heldList.length
      ++ itemOption item16 (s.orders.heldList.head?.bind fun i => (s.order? i).map Order.number)
      ++ itemOption item8 (s.queue.heldCause.map HeldCause.code)
  let found := queuePositions s start order
  summary ++ itemCutList summary.length ((found.take 16).map fun (p, id) => queueItem s p id)
    (decide (16 < found.length))

/-- READ_QUEUE's answer, formed after the read of the held list's head. -/
def answerQueue (start : Nat) (order : Option (Nat × Nat)) (s : State) : Reply × State :=
  let s1 := readHeldHead s.orders.heldList s
  okay (queueItems s1 start order) s1

/-- READ_QUEUE (R52); the read of the anti-starvation limit waits on a running write cycle. One that names an order
and has waited reads its slot and makes the NO_ORDER and DAMAGED tests again at the cycle's end (log entry 15). -/
def decideReadQueue (start : Nat) (number : Option Nat) (s : State) : Reply × State :=
  if start = 0 ∨ 512 < start then refuse .badValue s
  else
    match number with
    | none => if s.cycleRuns then (.wait false, s) else answerQueue start none s
    | some n =>
      let (named, s1) := lookUp n false s
      match named with
      | .noOrder => refuse .noOrder s1
      | .damaged .. => refuse .damaged s1
      | .order i o =>
        if s1.cycleRuns then (.wait false, s1)
        else answerQueue start (some (i, o.number)) s1

end Sys2Proof.Machine
end

