-- ==== Sys2Proof/Machine/PathRequests.lean ====
section
/-! DEFINITION. The requests of the engine and the paper train: HALT, RESUME, SELECT_MAGAZINE, LOAD_MAGAZINE,
LUT_WRITE, LUT_SWITCH, READ_ENGINE (chapter 5), CLEAR_FAULT and READ_TRAIN (chapter 6). -/

namespace Sys2Proof.Machine

/-! ### Holds (R73, R74, R105) -/

/-- HALT (R73). -/
def decideHalt (s : State) : Reply × State :=
  let s1 := s.addHold .labHalt
  okay (itemFlag s1.engine.current.isSome ++ itemFlag (s1.engine.state == .switching)
    ++ item8 s1.engine.holds.mask) s1

/-- RESUME (R74). -/
def decideResume (s : State) : Reply × State :=
  okay (item8 (s.engine.holds.put .labHalt false).mask) (removeHold .labHalt s)

/-- CLEAR_FAULT (R105): the counts answered are those before any clearing. -/
def decideClearFault (clearCounts : Option Bool) (s : State) : Reply × State :=
  let s1 := s.mapTransit fun t => { t with
    consecutiveBlind := 0
    strayMarks := if clearCounts = some true then 0 else t.strayMarks
    blindCuts := if clearCounts = some true then 0 else t.blindCuts }
  okay (item8 (s.engine.holds.put .cutterFault false).mask
    ++ item16 s.transit.strayMarks ++ item16 s.transit.blindCuts) (removeHold .cutterFault s1)

/-! ### Magazines (R82, R86) -/

/-- SELECT_MAGAZINE (R86), which signals the queue (R48). -/
def decideSelectMagazine (s : State) : Reply × State :=
  if s.engine.state = .switching then refuse .wrongState s
  else okay [] (s.mapEngine fun e => { e with selectPending := true }).signal

/-- Whether a load of a magazine is refused WRONG_STATE (R82). -/
def loadRefused (m : Magazine) (e : Engine) : Bool :=
  !(e.mag m).present || (e.mag m).paperEnd || e.state == .switching
    || (m == e.active && e.state == .exposing)

/-- LOAD_MAGAZINE (R82). -/
def decideLoadMagazine (magazine metres : Nat) (s : State) : Reply × State :=
  match magazineOfCode magazine with
  | none => refuse .badValue s
  | some m =>
    if metres = 0 ∨ 350 < metres then refuse .badValue s
    else if loadRefused m s.engine then refuse .wrongState s
    else
      let length := metres * 20000
      okay (item32 length) (s.setMag m { s.engine.mag m with remaining := length })

/-! ### LUT banks (R91) -/

/-- A table's entries from a starting code onward take the levels in order. -/
def writeLevels (table : List Nat) (start : Nat) (levels : List Nat) : List Nat :=
  table.take start ++ levels ++ table.drop (start + levels.length)

/-- A bank with one channel's table written (0 red, 1 green, 2 blue). -/
def LutBank.write (bank : LutBank) (channel start : Nat) (levels : List Nat) : LutBank :=
  match channel with
  | 0 => { bank with red := writeLevels bank.red start levels }
  | 1 => { bank with green := writeLevels bank.green start levels }
  | _ => { bank with blue := writeLevels bank.blue start levels }

/-- Whether a LUT_WRITE is refused BAD_VALUE (R91). -/
def lutWriteBad (bank channel start : Nat) (levels : List Nat) : Bool :=
  decide (1 < bank) || decide (2 < channel) || levels.isEmpty || decide (64 < levels.length)
    || decide (256 < start + levels.length) || levels.any fun level => decide (1023 < level)

/-- LUT_WRITE (R91). -/
def decideLutWrite (bank channel start : Nat) (levels : List Nat) (s : State) : Reply × State :=
  if lutWriteBad bank channel start levels then refuse .badValue s
  else if bank = s.engine.activeBank.val then refuse .wrongState s
  else
    okay [] (s.mapEngine fun e =>
      if bank = 0 then { e with lut0 := e.lut0.write channel start levels }
      else { e with lut1 := e.lut1.write channel start levels })

/-- LUT_SWITCH (R91). -/
def decideLutSwitch (s : State) : Reply × State :=
  okay (item8 s.engine.activeBank.val ++ itemFlag true)
    (s.mapEngine fun e => { e with swapPending := true })

/-! ### Reading the engine (R93) -/

/-- The exposure figures of a unit (R69): the three times, the three clamp flags, the line period. -/
def itemExposure (x : Exposure) : List Byte :=
  item16 x.timeR ++ item16 x.timeG ++ item16 x.timeB
    ++ itemFlag x.clampR ++ itemFlag x.clampG ++ itemFlag x.clampB ++ item16 x.period

/-- A unit's identity as READ_ENGINE and READ_TRAIN list it: id, kind, order number, line position, copy
index, lineage, SPOILED, VOID. -/
def itemUnit (id : Nat) (u : PrintUnit) : List Byte :=
  item16 id ++ item8 u.kind.code ++ itemOption item16 u.number ++ itemOption item8 u.position
    ++ itemOption item8 u.copy ++ item8 u.lineage ++ itemFlag u.spoiled ++ itemFlag u.void

/-- A line buffer: absent when empty, otherwise the line index and whether the line is complete. -/
def itemBuffer : LineBuffer → List Byte
  | .empty => item8 0
  | .requested k => item8 1 ++ item16 k ++ itemFlag false
  | .complete k _ => item8 1 ++ item16 k ++ itemFlag true

/-- A magazine record (R80). -/
def itemMagazine (r : MagazineRecord) : List Byte :=
  itemFlag r.present ++ itemOption item16 r.width ++ itemOption item8 r.surface
    ++ item32 r.remaining ++ itemFlag r.paperEnd

/-- The seconds left on the switch timer, a free value not above the switch time. While SWITCHING with the timer not
yet started, because its read of the switch time waits on a write cycle, they are absent (log entry 7). -/
def secondsLeft (s : State) : Option Nat :=
  s.engine.switchTimer.map fun time => min (Config.switchSecondsLeft s.draws time) time

/-- READ_ENGINE's response items (R93). With no phase the line and the lines of the phase are 0, and the lamp's
comparator level is 1 while the supply is low (log entry 21). -/
def engineItems (s : State) : List Byte :=
  let e := s.engine
  let lines := match s.inEngine, e.phase with
    | some (_, u), some phase => u.phaseLines phase
    | _, _ => 0
  item8 e.state.code ++ item8 (phaseCode e.phase) ++ itemFlag e.awaitingSettings
    ++ itemFlag e.firstLineTimer
    ++ itemOption (fun (id, u) => itemUnit id u) s.inEngine
    ++ itemOption itemExposure (s.inEngine.bind fun (_, u) => u.exposure)
    ++ item16 e.line ++ item16 lines
    ++ itemBuffer e.buffer1 ++ itemBuffer e.buffer2
    ++ item8 e.holds.mask ++ itemFlag e.selectPending
    ++ itemOption item8 (secondsLeft s)
    ++ item8 (magazineCode e.active) ++ itemMagazine e.magA ++ itemMagazine e.magB
    ++ item8 e.activeBank.val ++ itemFlag e.swapPending
    ++ itemFlag e.lampIsLow ++ itemFlag e.lampTimer ++ item16 e.discardedLines

/-- READ_ENGINE (R93). A running switch timer draws a free value. -/
def decideReadEngine (s : State) : Reply × State :=
  okay (engineItems s) (if s.engine.switchTimer.isSome then s.drawn else s)

/-! ### Reading the train (R110) -/

/-- An entry of READ_TRAIN's list (R110). E and W that are pending are sent as optional items that are absent (log
entry 21). The distance is reported only with the figures set. Every unit on the train has its exposure figures,
which are sent with no presence byte (R69). -/
def trainItem (s : State) (place : Nat) (e : TrainEntry) : List Byte :=
  match s.unit? e.unit with
  | none => []
  | some u =>
    item8 place ++ itemUnit e.unit u ++ itemWord e.mark
      ++ itemOption itemWord (e.figures.map CutFigures.expected)
      ++ itemOption item8 (e.figures.map CutFigures.window)
      ++ itemOption itemWord (e.figures.map fun f => f.closes - s.transit.path)
      ++ (u.exposure.map itemExposure).getD []

/-- READ_TRAIN's response items (R110). -/
def trainItems (s : State) (start : Nat) : List Byte :=
  let t := s.transit
  let summary :=
    itemWord t.path ++ item8 t.train.length ++ item8 t.consecutiveBlind
      ++ itemFlag s.engine.holds.cutterFault ++ item16 t.strayMarks ++ item16 t.blindCuts
      ++ item32 s.store.general.transitLength ++ item8 s.store.general.markWindow
  let found := (t.train.zipIdx 1).drop (start - 1)
  summary ++ itemCutList summary.length ((found.take 16).map fun (e, place) => trainItem s place e)
    (decide (16 < found.length))

/-- READ_TRAIN (R110); the read of the GENERAL sheet waits on a running write cycle. -/
def decideReadTrain (place : Nat) (s : State) : Reply × State :=
  if place = 0 ∨ 64 < place then refuse .badValue s
  else if s.cycleRuns then (.wait false, s)
  else okay (trainItems s place) s

end Sys2Proof.Machine
end

