-- ==== Sys2Proof/Machine/CounterRequests.lean ====
section
/-! DEFINITION. The requests of the counter: COLLECT, READ_BINS, EMPTY_TRAYS (chapter 7), QUOTE and PAY
(chapter 8). -/

namespace Sys2Proof.Machine

/-! ### Collection (R124, R125) -/

/-- A bin is released by COLLECT: FREE when its door is CLOSED, DISCARD with its count when it is OPEN
(R125). -/
def releaseBin (n : Nat) (s : State) : State :=
  if (s.bin n).isOpen then handBack n s else freeBin n s

/-- COLLECT (R124, R125). The bin's count is answered as 0 when the order holds no bin. -/
def decideCollect (number : Nat) (s : State) : Reply × State :=
  let (named, s1) := lookUp number false s
  match named with
  | .noOrder => refuse .noOrder s1
  | .damaged .. => refuse .damaged s1
  | .order i o =>
    if o.state = .ready ∧ o.collected = false then
      let count := (o.bin.map fun n => (s1.bin n).count).getD 0
      let s2 := match o.bin with
        | some n => releaseBin n s1
        | none => s1
      okay (itemFlag o.paid ++ itemOption item8 o.bin ++ item8 count ++ item16 o.trayCount)
        (settleKeys i { o with collected := true, bin := none } s2)
    else refuse .wrongState s1

/-! ### Bins and trays (R126, R127) -/

/-- A bin's item in READ_BINS: state, order number, count, door, opened-while-ready flag. -/
def itemBin (b : Bin) : List Byte :=
  item8 b.state.code ++ itemOption item16 b.number ++ item8 b.count ++ itemFlag (!b.isOpen)
    ++ itemFlag b.opened

/-- READ_BINS (R127). The door is coded from 0 in R111's order, OPEN then CLOSED. -/
def decideReadBins (s : State) : Reply × State :=
  let b := s.sorter
  okay (b.bins.flatMap itemBin ++ item16 b.overflow ++ item16 b.reject ++ item16 b.unclaimed
    ++ item8 b.capacity ++ item8 b.gate.code ++ item8 (b.bins.countP Bin.givable)) s

/-- EMPTY_TRAYS (R126): 0 OVERFLOW, 1 REJECT, 2 BOTH. The three counts are answered in READ_BINS's order,
overflow, reject, unclaimed, which R126 does not give (log entry 21). -/
def decideEmptyTrays (selection : Nat) (s : State) : Reply × State :=
  if 2 < selection then refuse .badValue s
  else
    okay (item16 s.sorter.overflow ++ item16 s.sorter.reject ++ item16 s.sorter.unclaimed)
      (s.mapSorter fun b => { b with
        overflow := if selection = 1 then b.overflow else 0
        unclaimed := if selection = 1 then b.unclaimed else 0
        reject := if selection = 0 then b.reject else 0 })

/-! ### Quotes and payment (R137 to R140) -/

/-- QUOTE's response items (R138). -/
def quoteItems (price : Sheet) (o : Order) : List Byte :=
  let p := priceOf price o
  item8 o.state.code ++ item8 o.lines.length ++ item16 o.requested
    ++ itemList8 (fun l => item32 (lineAmount price o.lines l)) o.lines
    ++ item32 p.subtotal ++ item32 p.rushAdd ++ item32 p.lateDiscount ++ item32 p.total
    ++ item16 price.writes ++ itemOption item32 (o.price.map PriceRecord.total)

/-- QUOTE (R137, R138); it sets a DRAFT's idle seconds to 0 whatever its status. -/
def decideQuote (number : Nat) (s : State) : Reply × State :=
  let (named, s1) := lookUp number true s
  match named with
  | .noOrder => refuse .noOrder s1
  | .damaged .. => refuse .damaged s1
  | .order _ o =>
    if s1.cycleRuns then refuse .storeBusy s1
    else if s1.store.price.bad then refuse .sheetBad s1
    else okay (quoteItems s1.store.price o) s1

/-- PAY on a READY order with PAID clear (R139, R140). -/
def takePayment (i amount : Nat) (o : Order) (s : State) : Reply × State :=
  let total := (o.price.map PriceRecord.total).getD 0
  if amount < total then
    (.answer .shortPayment (item32 total ++ item32 (total - amount)), s)
  else
    okay (item32 total ++ item32 amount ++ item32 (amount - total) ++ itemFlag o.collected)
      (settleKeys i { o with paid := true } s)

/-- PAY (R139, R140). -/
def decidePay (number amount : Nat) (s : State) : Reply × State :=
  let (named, s1) := lookUp number false s
  match named with
  | .noOrder => refuse .noOrder s1
  | .damaged .. => refuse .damaged s1
  | .order i o =>
    if 99999999 < amount then refuse .badValue s1
    else if o.state = .complete then refuse .notPriced s1
    else if o.state = .ready ∧ o.paid = false then takePayment i amount o s1
    else refuse .wrongState s1

end Sys2Proof.Machine
end

