-- ==== Sys2Proof/Machine/CalibrationRequests.lean ====
section
/-! DEFINITION. The requests of the Calibration Unit: START_CAL, WAIVE_CAL and READ_CAL (chapter 9). -/

namespace Sys2Proof.Machine

/-! ### Starting and waiving (R146, R147) -/

/-- A strip as START_CAL makes it (R46). -/
def stripUnit (surface : Nat) (general : Sheet) : PrintUnit :=
  { kind := .strip, slot := none, number := none, position := none, copy := none, lineage := 0
    surface, width := none, lead := general.leadGap, print := 800, border := 0
    mark := general.markLines, place := .queue, spoiled := false, void := false, exposure := none }

/-- The strip is made and joins the strip section, and the strip record takes progress OUT (R46, R147). -/
def queueStrip (surface : Nat) (s : State) : Reply × State :=
  let u := stripUnit surface s.store.general
  match s.makeUnit u with
  | (some id, s1) =>
    let s2 := { s1 with queue := { s1.queue with strip := s1.queue.strip ++ [id], signal := true } }
    okay (item16 id ++ item16 u.length) (s2.setStrip (.out surface id false))
  | (none, s1) => refuse .full s1

/-- Whether a STRIP unit is in the queue, the engine or the train (R46). -/
def State.stripAbout (s : State) : Bool :=
  (s.queue.ids ++ s.inFlight).any fun id => (s.unit? id).any fun u => u.kind == .strip

/-- START_CAL (R147, R46). A running write cycle delays it after its tests, which are made again then. -/
def decideStartCal (surface : Nat) (s : State) : Reply × State :=
  if 3 < surface then refuse .badValue s
  else if s.store.calibration.bad then refuse .sheetBad s
  else if s.cal.strip ≠ .none ∨ s.stripAbout = true then refuse .wrongState s
  else if Config.stripLimit < s.unitsInUse then refuse .full s
  else if s.cycleRuns then (.wait false, s)
  else queueStrip surface s

/-- WAIVE_CAL (R146); a due surface's change signals the queue. -/
def decideWaiveCal (surface : Nat) (s : State) : Reply × State :=
  if 3 < surface then refuse .badValue s
  else
    let r := s.surface surface
    let s1 := s.setSurface surface { r with due := false, counter := 0 }
    okay (itemFlag r.due ++ item16 r.counter) (if r.due then s1.signal else s1)

/-! ### Reading (R154) -/

/-- Three signed figures that fit one byte each. -/
def itemChannels8 (c : Channels) : List Byte := itemInt8 c.r ++ itemInt8 c.g ++ itemInt8 c.b

/-- Three signed figures of two bytes each. -/
def itemChannels16 (c : Channels) : List Byte := itemInt16 c.r ++ itemInt16 c.g ++ itemInt16 c.b

/-- A surface's summary: counter, due flag, strict hold, and the outcome, abandon cause and shop time of its
last result. -/
def itemSurface (s : State) (u : Nat) : List Byte :=
  let r := s.surface u
  item16 r.counter ++ itemFlag r.due ++ itemFlag (s.strictHold u)
    ++ itemOption (fun l => item8 l.outcome.code) r.last
    ++ itemOption (fun c => item8 c.code) (r.last.bind LastResult.cause)
    ++ itemOption (fun l => itemTime l.time) r.last

/-- The whole of a last result (R154). The figures of a kind, such as the three densities, are one optional item with
one presence byte (log entry 21). -/
def itemLast (l : LastResult) : List Byte :=
  item8 l.outcome.code ++ itemOption (fun c => item8 c.code) l.cause ++ itemTime l.time
    ++ itemOption (fun vs => vs.flatMap item16) l.readings
    ++ itemOption itemChannels16 l.densities ++ itemOption itemChannels16 l.errors
    ++ itemOption itemChannels16 l.steps ++ itemOption itemChannels8 l.before
    ++ itemOption itemChannels8 l.after
    ++ itemFlag l.clamps.r ++ itemFlag l.clamps.g ++ itemFlag l.clamps.b

/-- A figure of the CALIBRATION sheet, absent while the sheet is BAD (R154). -/
def Sheet.whenGood {α : Type} (cal : Sheet) (a : α) : Option α := if cal.bad then none else some a

/-- A surface's figures of the CALIBRATION sheet: interval, strict flag, balances, aims. Each figure is an optional item
with a presence byte of its own (log entry 21). -/
def itemFigures (cal : Sheet) (u : Nat) : List Byte :=
  itemOption item16 (cal.whenGood (cal.interval u)) ++ itemOption itemFlag (cal.whenGood (cal.strict u))
    ++ ([0, 1, 2].flatMap fun c => itemOption itemInt8 (cal.whenGood (cal.labBalance u c)))
    ++ ([0, 1, 2].flatMap fun c => itemOption item16 (cal.whenGood (cal.aimDensity u c)))

/-- The place of the strip unit while OUT. -/
def State.stripPlace (s : State) (id : Nat) : Option Place := (s.unit? id).map PrintUnit.place

/-- The strip record (R154): progress, surface, unit id, place, abandoned flag, cause, conversion,
readings. -/
def itemStrip (s : State) : List Byte :=
  match s.cal.strip with
  | .none =>
    item8 0 ++ item8 0 ++ item8 0 ++ item8 0 ++ item8 0 ++ item8 0 ++ item8 0 ++ itemList8 item16 []
  | .out u id abandoned =>
    item8 1 ++ itemOption item8 (some u) ++ itemOption item16 (some id)
      ++ itemOption (fun p => item8 p.code) (s.stripPlace id) ++ itemOption itemFlag (some abandoned)
      ++ itemOption (fun c => item8 c.code) (if abandoned then some AbandonCause.spoiled else none)
      ++ item8 0 ++ itemList8 item16 []
  | .reading u _ k values =>
    item8 2 ++ itemOption item8 (some u) ++ item8 0 ++ item8 0 ++ item8 0 ++ item8 0
      ++ itemOption item8 (some k) ++ itemList8 item16 values
  | .settling u values =>
    item8 3 ++ itemOption item8 (some u) ++ item8 0 ++ item8 0 ++ item8 0 ++ item8 0 ++ item8 0
      ++ itemList8 item16 values

/-- READ_CAL's response items (R154). -/
def calItems (s : State) (surface : Nat) : List Byte :=
  let cal := s.store.calibration
  ((List.range 4).flatMap fun u => itemSurface s u)
    ++ itemOption itemLast (s.surface surface).last
    ++ ((List.range 4).flatMap fun u => itemFigures cal u)
    ++ itemOption item8 (cal.whenGood cal.gain) ++ itemOption item8 (cal.whenGood cal.slope)
    ++ itemOption item8 (cal.whenGood cal.tolerance) ++ itemOption item8 (cal.whenGood cal.deadBand)
    ++ itemStrip s

/-- READ_CAL (R154); its read of the sheet waits on a running write cycle. -/
def decideReadCal (surface : Nat) (s : State) : Reply × State :=
  if 3 < surface then refuse .badValue s
  else if s.cycleRuns then (.wait false, s)
  else okay (calItems s surface) s

end Sys2Proof.Machine
end

