-- ==== Sys2Proof/Machine/UnitRequests.lean ====
section
/-! DEFINITION. The requests of the link (chapter 10), and those of the Notice Unit, the Settings Store and
the Record Memory (chapter 11). -/

namespace Sys2Proof.Machine

/-! ### Link setup (R165, R172) -/

/-- Link fields are changed. -/
def State.mapLink (s : State) (f : LinkController → LinkController) : State :=
  { s with link := f s.link }

/-- Whether a present item is out of its range (R165). -/
def setupBad (limit : Nat) (item : Option Nat) : Bool :=
  item.any fun n => n == 0 || decide (limit < n)

/-- LINK_SETUP (R165); the read of the GENERAL sheet for an absent item waits on a running write cycle. A present item
waits with it: frames that close during the wait are judged by the address still in force (log entry 15). -/
def decideLinkSetup (address lab : Option Nat) (s : State) : Reply × State :=
  if setupBad 254 address || setupBad 31 lab then refuse .badValue s
  else if (address.isNone || lab.isNone) && s.cycleRuns then (.wait false, s)
  else
    let a := address.getD s.store.general.linkAddressDefault
    let l := lab.getD s.store.general.labStationDefault
    okay (item8 a ++ item8 l) (s.mapLink fun k => { k with setUp := true, address := a, lab := some l })

/-- RESET (R166): answered OK at once; the Link Controller goes to RESETTING when the response is sent. -/
def decideReset (s : State) : Reply × State := okay [] s

/-- READ_LINK (R172); `queued` is the length of the receive queue when the request was taken. -/
def decideReadLink (queued : Nat) (s : State) : Reply × State :=
  if s.cycleRuns then (.wait false, s)
  else
    let k := s.link
    okay (itemFlag k.setUp ++ item8 k.address ++ itemOption item8 k.lab
      ++ item8 s.store.general.linkAddressDefault ++ item8 s.store.general.labStationDefault
      ++ item8 queued ++ item16 k.badForm ++ item16 k.badCheck ++ item16 k.badSource
      ++ item16 k.overrun ++ itemFlag k.violation.isSome ++ item8 k.violationOverflow) s

/-- A violation record in a response (R171). -/
def itemViolation (v : Violation) : List Byte :=
  item8 v.station ++ item8 v.code ++ item8 v.cause.code ++ itemOption item16 v.number
    ++ itemOption item8 v.sheet ++ itemFlag v.broadcast ++ itemTime v.time

/-- The violation record, or absent, and the overflow count (R172). -/
def violationItems (k : LinkController) : List Byte :=
  itemOption itemViolation k.violation ++ item8 k.violationOverflow

/-- READ_VIOLATION (R172). -/
def decideReadViolation (s : State) : Reply × State := okay (violationItems s.link) s

/-- CLEAR_VIOLATION (R172). -/
def decideClearViolation (s : State) : Reply × State :=
  okay (violationItems s.link) (s.mapLink fun k => { k with violation := none, violationOverflow := 0 })

/-! ### Notices (R175, R176) -/

/-- A kind's detail, by its place in the list: an order number takes two bytes, any other detail one
(R158, R174). -/
def itemDetail (index detail : Nat) : List Byte :=
  if index = 2 ∨ index = 4 ∨ index = 5 ∨ index = 6 ∨ index = 10 then item16 detail else item8 detail

/-- A kind's item in READ_NOTICES: pending flag, enable, count, detail. -/
def itemNotice (index : Nat) (n : Notice) : List Byte :=
  itemFlag n.pending ++ itemFlag n.enable ++ item8 n.count ++ itemOption (itemDetail index) n.detail

/-- READ_NOTICES (R175). -/
def decideReadNotices (s : State) : Reply × State :=
  okay (item8 s.notices.code ++ (s.notices.kinds.zipIdx.flatMap fun (n, i) => itemNotice i n)
    ++ item16 s.memory.corrections ++ item8 s.memory.threshold) s

/-- CLEAR_NOTICE (R176). -/
def decideClearNotice (kind : Nat) (s : State) : Reply × State :=
  match s.notices.kinds[kind - 1]? with
  | some n =>
    if kind = 0 then refuse .badValue s
    else
      okay (item8 n.count ++ itemOption (itemDetail (kind - 1)) n.detail)
        { s with notices := { kinds := s.notices.kinds.modify (kind - 1) Notice.cleared } }
  | none => refuse .badValue s

/-- The enables with bit `i` of a mask for kind `i` (R176, R158). -/
def setEnables (mask : BitVec 16) (kinds : List Notice) : List Notice :=
  kinds.zipIdx.map fun (n, i) => { n with enable := mask.getLsbD i }

/-- SET_NOTICE_ENABLES (R176). -/
def decideSetNoticeEnables (mask : BitVec 16) (s : State) : Reply × State :=
  okay (item16 (maskOf (s.notices.kinds.map Notice.enable)))
    { s with notices := { kinds := setEnables mask s.notices.kinds } }

/-! ### The store (R181, R182) -/

/-- The sheet that the tests for sheet, entry and count allow (R181). -/
def storeNamed (sheet start count : Nat) : Option SheetName :=
  if 63 < start ∨ count = 0 ∨ 16 < count then none else SheetName.ofCode sheet

/-- STORE_READ (R181). -/
def decideStoreRead (sheet start count : Nat) (s : State) : Reply × State :=
  match storeNamed sheet start count with
  | none => refuse .badValue s
  | some name =>
    if s.cycleRuns then refuse .storeBusy s
    else
      let sh := s.store.sheet name
      okay (itemList8 itemWord (readEntries sh start count) ++ itemFlag sh.bad
        ++ sh.pages.flatMap itemFlag ++ item16 sh.writes) s

/-- The entries a write stored, one for each value carried (R182). -/
def storedEntries (name : SheetName) (start count : Nat) (s : State) : List Word32 :=
  (writtenEntries (firstWritable start) count).map fun i => (s.store.sheet name).entry i

/-- STORE_WRITE (R182, R183). -/
def decideStoreWrite (sheet start : Nat) (values : List Word32) (s : State) : Reply × State :=
  match storeNamed sheet start values.length with
  | none => refuse .badValue s
  | some name =>
    if s.cycleRuns then refuse .storeBusy s
    else
      let (clamped, s1) := storeWrite name start values s
      (.answer (if clamped then .okClamped else .ok)
        (itemList8 itemWord (storedEntries name start values.length s1)
          ++ item16 (s1.store.sheet name).writes), s1)

/-! ### Releasing a damaged slot (R179) -/

/-- The bins whose record names a slot, FILLING or READY (R179). -/
def binsOfSlot (i : Nat) (s : State) : List Nat :=
  binNumbers.filter fun n =>
    (s.bin n).slot == some i && ((s.bin n).state == .filling || (s.bin n).state == .ready)

/-- The three steps of a release (R179). -/
def releaseSlot (i : Nat) (o : Order) (s : State) : Reply × State :=
  let queued := s.queuedWhere fun u => u.slot == some i
  let s1 := (s.removeQueued queued).setFigures i none
  let bins := binsOfSlot i s1
  let s2 := bins.foldl (fun s n => handBack n s) s1
  okay (item16 o.number ++ itemOption item8 bins.head? ++ item16 queued.length) (s2.freeSlot i)

/-- RELEASE_DAMAGED (R179). The slot is read through the check code before its state is tested, so the request may
correct words and still answer WRONG_STATE, or find the slot damaged and release it (DESIGN CHOICE, log entry 33). -/
def decideReleaseDamaged (slot : Nat) (s : State) : Reply × State :=
  if 63 < slot then refuse .badValue s
  else
    let s1 := readSlot slot s
    match s1.order? slot with
    | some o => if o.state = .damaged then releaseSlot slot o s1 else refuse .wrongState s1
    | none => refuse .wrongState s1

end Sys2Proof.Machine
end

