-- ==== Sys2Proof/Machine/Link.lean ====
section
/-! DEFINITION. The Link Controller: frames and their check, the receive queue, station rights, violations,
the handing of a request to its owning block and its response (chapter 10). -/

namespace Sys2Proof.Machine

/-! ### Frames on the line (R157, R159) -/

/-- A frame marker. -/
abbrev marker : Byte := 0x7E

/-- The escape byte. -/
abbrev escapeByte : Byte := 0x7D

/-- The bytes of a run between markers with the escapes removed; none for a run that ends in an escape, which
aborts the frame (R157). -/
def unescape : List Byte → Option (List Byte)
  | [] => some []
  | [b] => if b = escapeByte then none else some [b]
  | b :: c :: rest =>
    if b = escapeByte then (unescape rest).map fun l => (c ^^^ 0x20#8) :: l
    else (unescape (c :: rest)).map fun l => b :: l

/-- The bytes of a frame with the marker and the escape byte escaped (R157). -/
def escape (bytes : List Byte) : List Byte :=
  bytes.flatMap fun b => if b = marker ∨ b = escapeByte then [escapeByte, b ^^^ 0x20#8] else [b]

/-- One bit of the check register's shift (R159). -/
def crcShift (r : Crc) : Crc := if r.getLsbD 0 then (r >>> 1) ^^^ 0x8408#16 else r >>> 1

/-- One byte taken into the check register, least significant bit first (R159). -/
def crcByte (r : Crc) (b : Byte) : Crc := Nat.repeat crcShift 8 (r ^^^ b.setWidth 16)

/-- The check register after some bytes, from its preset (R159). -/
def crc (bytes : List Byte) : Crc := bytes.foldl crcByte 0xFFFF#16

/-- The check of some bytes: the ones' complement of the register (R159). -/
def frameCheck (bytes : List Byte) : Crc := ~~~(crc bytes)

/-- The check as it is sent, low byte first (R159). -/
def checkBytes (bytes : List Byte) : List Byte :=
  [(frameCheck bytes).extractLsb' 0 8, (frameCheck bytes).extractLsb' 8 8]

/-- A response frame's bytes before escaping (R158, R159). -/
def Response.frame (r : Response) : List Byte :=
  let bytes := [BitVec.ofNat 8 r.destination, BitVec.ofNat 8 r.source, BitVec.ofNat 8 r.code, r.tag,
    BitVec.ofNat 8 r.status.code, BitVec.ofNat 8 r.body.length] ++ r.body
  bytes ++ checkBytes bytes

/-- A request frame's bytes before escaping, as a station sends it (R158, R159). -/
def requestFrame (destination source : Nat) (tag : Byte) (r : Request) : List Byte :=
  let body := requestBody r
  let bytes := [BitVec.ofNat 8 destination, BitVec.ofNat 8 source, BitVec.ofNat 8 (requestCode r), tag,
    BitVec.ofNat 8 body.length] ++ body
  bytes ++ checkBytes bytes

/-- A response as the transmitter sends it, between its markers (R157). Each response has an opening marker of its own,
also where the closing marker of the one before it could serve (log entry 36). -/
def Response.onLine (r : Response) : List Byte := [marker] ++ escape r.frame ++ [marker]

/-! ### Accepting a frame (R160, R161) -/

/-- What becomes of a frame at its closing marker (R160). -/
inductive Verdict where
  | badForm
  | badCheck
  | otherAddress
  | badSource
  | accepted (frame : Frame)
  deriving DecidableEq, Repr

/-- The six tests of a frame, escapes removed, in order (R160). -/
def judge (address : Nat) (bytes : List Byte) : Verdict :=
  if bytes.length < 7 ∨ 247 < bytes.length then .badForm
  else if crc bytes ≠ 0xF0B8#16 then .badCheck
  else
    match bytes with
    | d :: source :: code :: tag :: length :: rest =>
      if d.toNat ≠ address ∧ d ≠ 0xFF#8 then .otherAddress
      else if length.toNat + 7 ≠ bytes.length then .badForm
      else if source.toNat = 0 ∨ 31 < source.toNat then .badSource
      else if 0x80 ≤ code.toNat then .badForm
      else .accepted { broadcast := d == 0xFF#8, source := source.toNat, code := code.toNat, tag
                       body := rest.take length.toNat }
    | _ => .badForm

/-- A frame is discarded as bad-form. -/
def countBadForm (k : LinkController) : LinkController := { k with badForm := satUp k.badForm 65535 }

/-- An accepted frame joins the receive queue's tail, or is dropped when the queue holds 4 (R161). -/
def receiveFrame (f : Frame) (k : LinkController) : LinkController :=
  if k.queue.length < Config.receiveLimit then { k with queue := k.queue ++ [f] }
  else { k with overrun := satUp k.overrun 65535 }

/-- The closing marker of a non-empty run of bytes (R160). -/
def closeFrame (line : List Byte) (k : LinkController) : LinkController :=
  match unescape line with
  | none => countBadForm k
  | some bytes =>
    match judge k.address bytes with
    | .badForm => countBadForm k
    | .badCheck => { k with badCheck := satUp k.badCheck 65535 }
    | .otherAddress => k
    | .badSource => { k with badSource := satUp k.badSource 65535 }
    | .accepted f => receiveFrame f k

/-- A marker with the bytes received before it: in IN_FRAME it closes the frame, an empty run ignored, and
opens the next; in HUNT it opens a frame (R156, R157, R160). -/
def takeMarker (line : List Byte) (k : LinkController) : LinkController :=
  if k.inFrame then (if line.isEmpty then k else closeFrame line k) else { k with inFrame := true }

/-- A frame being gathered is discarded as bad-form and the receiver returns to HUNT; nothing happens in
HUNT (R156, R157). -/
def dropGathered (k : LinkController) : LinkController :=
  if k.inFrame then { countBadForm k with inFrame := false } else k

/-! ### Station rights (R168 to R171) -/

/-- The right classes (R168). -/
inductive RightClass where
  | generalRead
  | orderCreate
  | orderFind
  | orderRead
  | orderWrite
  | money
  | control
  | settingsRead
  | settingsWrite
  | labOnly
  deriving DecidableEq, Repr

/-- The right class of a request (R167). A READ_QUEUE whose presence byte codes nothing names no order (log entry
8). -/
def rightClass : Request → RightClass
  | .openOrder .. => .orderCreate
  | .addLine .. => .orderWrite
  | .changeLine .. => .orderWrite
  | .dropLine .. => .orderWrite
  | .submit _ => .orderWrite
  | .withdraw _ => .orderWrite
  | .cancel _ => .orderWrite
  | .readOrder _ => .orderRead
  | .findOrders .. => .orderFind
  | .setClock .. => .control
  | .readClock => .generalRead
  | .retryFault _ => .control
  | .promote _ => .control
  | .readQueue _ none => .generalRead
  | .readQueue _ (some _) => .orderRead
  | .halt => .control
  | .resume => .control
  | .selectMagazine => .control
  | .loadMagazine .. => .control
  | .lutWrite .. => .control
  | .lutSwitch => .control
  | .readEngine => .generalRead
  | .clearFault _ => .control
  | .readTrain _ => .generalRead
  | .collect _ => .money
  | .readBins => .generalRead
  | .emptyTrays _ => .control
  | .quote _ => .orderRead
  | .pay .. => .money
  | .startCal _ => .control
  | .waiveCal _ => .control
  | .readCal _ => .generalRead
  | .linkSetup .. => .labOnly
  | .reset => .labOnly
  | .readLink => .generalRead
  | .readViolation => .control
  | .clearViolation => .labOnly
  | .readNotices => .generalRead
  | .clearNotice _ => .control
  | .setNoticeEnables _ => .control
  | .storeRead .. => .settingsRead
  | .storeWrite .. => .settingsWrite
  | .releaseDamaged _ => .labOnly
  | .unspelled 0x01 _ => .orderCreate
  | .unspelled 0x09 _ => .orderFind
  | .unspelled 0x0E _ => .generalRead
  | .unspelled 0x16 _ => .control
  | .unspelled _ _ => .labOnly

/-- A station's rights as its STATIONS entry holds them (R180): order access 0 NONE, 1 OWN, 2 READ_ANY, 3
ANY; settings access 0 NONE, 1 READ, 2 READ_WRITE. -/
structure Rights where
  enabled  : Bool
  order    : Nat
  settings : Nat
  control  : Bool
  money    : Bool
  deriving DecidableEq, Repr

/-- The rights a STATIONS entry spells (R180). -/
def rightsOf (w : Word32) : Rights :=
  { enabled := w.getLsbD 0, order := (w.extractLsb' 1 2).toNat, settings := (w.extractLsb' 3 2).toNat
    control := w.getLsbD 5, money := w.getLsbD 6 }

/-- Whether an enabled entry admits a request's class, the owner test of OWN apart (R168). -/
def Rights.allows (w : Rights) (r : Request) : Bool :=
  match rightClass r with
  | .generalRead => true
  | .orderCreate => w.order == 1 || w.order == 3
  | .orderFind => w.order != 0
  | .orderRead => w.order != 0
  | .orderWrite => w.order == 1 || w.order == 3
  | .money => w.money
  | .control => w.control
  | .settingsRead => w.settings != 0
  | .settingsWrite => w.settings == 2 && namedSheet r != some SheetName.stations.code
  | .labOnly => false

/-- What the rights test finds (R168 to R170). `pass` carries the slot that the owner test's read turned
DAMAGED with its number lost, so that the owning block answers DAMAGED (R169). -/
inductive RightsResult where
  | pass (lost : Option Nat)
  | deny (cause : DenyCause)
  | wait
  deriving DecidableEq, Repr

/-- The owner test of an OWN station (R169). -/
def ownerTest (source number : Nat) (s : State) : RightsResult × State :=
  match s.findOrder number with
  | none => (.pass none, s)
  | some i =>
    let s1 := readSlot i s
    match s1.order? i with
    | none => (.pass none, s1)
    | some o =>
      if o.state = .damaged then (.pass (if o.number = number then none else some i), s1)
      else if o.owner = source then (.pass none, s1)
      else (.deny .notOwner, s1)

/-- The rights test by the station's entry (R168, R169). -/
def entryTest (source : Nat) (r : Request) (s : State) : RightsResult × State :=
  let w := rightsOf (s.store.stations.entry (source - 1))
  if s.store.stations.bad then (.deny .sheetBad, s)
  else if !w.enabled then (.deny .notEnabled, s)
  else if rightClass r = .labOnly then (.deny .labOnly, s)
  else if !w.allows r then (.deny .noRight, s)
  else
    match namedNumber r with
    | some n =>
      if w.order = 1 ∧ (rightClass r = .orderRead ∨ rightClass r = .orderWrite) then ownerTest source n s
      else (.pass none, s)
    | none => (.pass none, s)

/-- The rights test (R168, R170): the lab station passes; LINK_SETUP passes before the link is set up
(R165); a store request passes to the store while a write cycle runs, and any other request waits for the
cycle's end. So does a QUOTE of another station, which R137 has refused STORE_BUSY: R170 makes its exception for store
requests alone (log entry 15). -/
def rightsTest (source : Nat) (r : Request) (s : State) : RightsResult × State :=
  if s.link.lab = some source ∨ s.link.setUp = false then (.pass none, s)
  else if s.cycleRuns then
    if (namedSheet r).isSome then (.pass none, s) else (.wait, s)
  else entryTest source r s

/-- The violation record after a violation, its overflow count, and PROTECTION (R171). -/
def violate (source : Nat) (r : Request) (cause : DenyCause) (broadcast : Bool) (s : State) : State :=
  let v : Violation :=
    { station := source, code := requestCode r, cause, number := namedNumber r, sheet := namedSheet r
      broadcast, time := s.shopTime }
  (s.mapLink fun k => match k.violation with
    | none => { k with violation := some v }
    | some _ => { k with violationOverflow := satUp k.violationOverflow 255 }).raise .protection source

/-! ### Requests and responses (R162 to R164) -/

/-- A response is formed and its sending begins (R162, R163). -/
def respond (h : Header) (code : Nat) (status : Status) (body : List Byte) (thenReset : Bool)
    (s : State) : State :=
  let r : Response :=
    { destination := h.source, source := s.link.address, code := code + 0x80, tag := h.tag, status, body }
  s.mapLink fun k => { k with phase := .sending r thenReset }

/-- The owning block's decision on a request (R167's owning chapters). `queued` is the receive queue's length
when the request was taken, and `resumed` says that the request has waited in its owning block. An item that
spells nothing is out of its owner's range, BAD_VALUE (R163, log entry 8). -/
def decideRequest (source queued : Nat) (resumed : Bool) (r : Request) (s : State) : Reply × State :=
  match r with
  | .openOrder cls promise tag => decideOpenOrder source cls promise tag s
  | .addLine n line => decideAddLine resumed n line s
  | .changeLine n position line => decideChangeLine resumed n position line s
  | .dropLine n position => decideDropLine n position s
  | .submit n => decideSubmit resumed n s
  | .withdraw n => decideWithdraw n s
  | .cancel n => decideCancel n s
  | .readOrder n => decideReadOrder n s
  | .findOrders sel start => decideFindOrders source sel start s
  | .setClock minute second => decideSetClock minute second s
  | .readClock => decideReadClock s
  | .retryFault n => decideRetryFault n s
  | .promote n => decidePromote n s
  | .readQueue start n => decideReadQueue start n s
  | .halt => decideHalt s
  | .resume => decideResume s
  | .selectMagazine => decideSelectMagazine s
  | .loadMagazine m metres => decideLoadMagazine m metres s
  | .lutWrite bank channel start levels => decideLutWrite bank channel start levels s
  | .lutSwitch => decideLutSwitch s
  | .readEngine => decideReadEngine s
  | .clearFault counts => decideClearFault counts s
  | .readTrain place => decideReadTrain place s
  | .collect n => decideCollect n s
  | .readBins => decideReadBins s
  | .emptyTrays sel => decideEmptyTrays sel s
  | .quote n => decideQuote n s
  | .pay n amount => decidePay n amount s
  | .startCal surface => decideStartCal surface s
  | .waiveCal surface => decideWaiveCal surface s
  | .readCal surface => decideReadCal surface s
  | .linkSetup address lab => decideLinkSetup address lab s
  | .reset => decideReset s
  | .readLink => decideReadLink queued s
  | .readViolation => decideReadViolation s
  | .clearViolation => decideClearViolation s
  | .readNotices => decideReadNotices s
  | .clearNotice kind => decideClearNotice kind s
  | .setNoticeEnables mask => decideSetNoticeEnables mask s
  | .storeRead sheet start count => decideStoreRead sheet start count s
  | .storeWrite sheet start values => decideStoreWrite sheet start values s
  | .releaseDamaged slot => decideReleaseDamaged slot s
  | .unspelled _ _ => refuse .badValue s

/-- The answer on an order whose slot the owner test turned DAMAGED with its number lost (R169, R25):
READ_ORDER gives the slot and the number 0, READ_QUEUE tests its position first (R52). -/
def damagedReply (r : Request) (i : Nat) (s : State) : Reply × State :=
  match r with
  | .readOrder _ => (.answer .damaged (item8 i ++ item16 0), s)
  | .readQueue start _ => if start = 0 ∨ 512 < start then refuse .badValue s else refuse .damaged s
  | _ => refuse .damaged s

/-- A request that waits on a write cycle (R162). -/
def waiting (h : Header) (broadcast : Bool) (r : Request) (queued : Nat) (stage : WaitStage) :
    InProgress :=
  { header := h, broadcast, request := r, queued, stage }

/-- The owning block's reply becomes a response, or the request goes on WORKING; a broadcast forms no
response (R162, R164). -/
def conclude (h : Header) (broadcast : Bool) (r : Request) (queued : Nat) : Reply × State → State
  | (.answer status body, s) =>
    if broadcast then s.mapLink fun k => { k with phase := .idle }
    else respond h (requestCode r) status body (decide (r = .reset)) s
  | (.wait damaged, s) =>
    s.mapLink fun k => { k with phase := .working (waiting h broadcast r queued (.owner damaged)) }

/-- A request is refused DENIED: the violation handling, and the response unless it came by broadcast
(R171). -/
def denied (h : Header) (broadcast : Bool) (r : Request) (cause : DenyCause) (s : State) : State :=
  let s1 := violate h.source r cause broadcast s
  if broadcast then s1.mapLink fun k => { k with phase := .idle }
  else respond h (requestCode r) .denied [] false s1

/-- The rights test and, when it passes, the hand-over to the owning block (R163, R170). -/
def passRights (h : Header) (broadcast : Bool) (r : Request) (queued : Nat) (s : State) : State :=
  match rightsTest h.source r s with
  | (.wait, s1) =>
    s1.mapLink fun k => { k with phase := .working (waiting h broadcast r queued .rights) }
  | (.deny cause, s1) => denied h broadcast r cause s1
  | (.pass (some i), s1) => conclude h broadcast r queued (damagedReply r i s1)
  | (.pass none, s1) => conclude h broadcast r queued (decideRequest h.source queued false r s1)

/-- The link's tests of a frame addressed to the part (R163). Test 3 is of the body's length alone, so a body that
fits and holds a byte that codes nothing goes on to the rights test. -/
def takeAddressed (f : Frame) (queued : Nat) (s : State) : State :=
  let h : Header := { source := f.source, tag := f.tag }
  if s.link.setUp = false ∧ f.code ≠ 0x20 then respond h f.code .notSetUp [] false s
  else if isRequestCode f.code = false then respond h f.code .unknownRequest [] false s
  else
    match readRequest f.code f.body with
    | none => respond h f.code .badValue [] false s
    | some r => passRights h false r queued s

/-- A broadcast frame: acted on only as a SET_CLOCK of a set-up link that fits its items; anything else is
discarded with no action (R164). -/
def takeBroadcast (f : Frame) (queued : Nat) (s : State) : State :=
  if s.link.setUp = true ∧ f.code = 0x0A then
    match readRequest f.code f.body with
    | none => s
    | some r => passRights { source := f.source, tag := f.tag } true r queued s
  else s

/-- The head frame of the receive queue is taken (R162). -/
def takeRequest (s : State) : State :=
  match s.link.phase, s.link.queue with
  | .idle, f :: rest =>
    let s1 := s.mapLink fun k => { k with queue := rest }
    if f.broadcast then takeBroadcast f rest.length s1 else takeAddressed f rest.length s1
  | _, _ => s

/-- A request in progress that waited on a write cycle is taken up (R162, R170, R183). -/
def resumeRequest (s : State) : State :=
  match s.link.phase with
  | .working p =>
    match p.stage with
    | .rights => passRights p.header p.broadcast p.request p.queued s
    | .owner true => conclude p.header p.broadcast p.request p.queued (refuse .damaged s)
    | .owner false =>
      conclude p.header p.broadcast p.request p.queued
        (decideRequest p.header.source p.queued true p.request s)
  | _ => s

/-- A response's closing marker has been transmitted (R162, R166). -/
def responseSent (s : State) : State :=
  match s.link.phase with
  | .sending _ thenReset =>
    s.mapLink fun k => { k with phase := if thenReset then .resetting else .idle }
  | _ => s

end Sys2Proof.Machine
end

