-- ==== Sys2Proof/Machine/Starts.lean ====
section
/-! DEFINITION. The starts of the part, the warm reset, and the loss of power (R31, R53 to R55, R94 to R96,
R128, R141, R155, R173, R185). -/

namespace Sys2Proof.Machine

/-! ### What a start senses (R80, R94, R128) -/

/-- A magazine's record as its sensor and code lines give it, with a remaining length when it is present
(R80, R94). The lines carry a width code of three bits and a surface code of two. A magazine sensed absent has a
clear paper-end flag, whatever its paper-end sensor shows (log entry 23). -/
def senseMagazine (m : SensedMagazine) (remaining : Nat) : MagazineRecord :=
  if m.present then
    { present := true, width := widthOfCode (m.widthCode % 8), surface := some (m.surfaceCode % 4)
      remaining, paperEnd := m.paperEnd }
  else MagazineRecord.absent

/-- A magazine's record after a warm reset: sensed, with its remaining length kept (R94). -/
def senseKeeping (m : SensedMagazine) (r : MagazineRecord) : MagazineRecord :=
  { senseMagazine m 0 with remaining := r.remaining }

/-- The door fields as sensed; nothing else of a bin changes (R128). -/
def senseDoors (doorsOpen : List Bool) (bins : List Bin) : List Bin :=
  bins.zipIdx.map fun (b, i) => { b with isOpen := doorsOpen.getD i false }

/-! ### Steps the starts share -/

/-- The copies of the correction threshold and the bin capacity are read from the GENERAL sheet (R112,
R177). -/
def readCopies (s : State) : State :=
  { s with
    memory := { s.memory with threshold := s.store.general.correctionThreshold }
    sorter := { s.sorter with capacity := s.store.general.binCapacity } }

/-- The engine's values after a start or warm reset (R94): HELD with LAB_HALT, no unit, no change, the lamp
timer started when the comparator is low. -/
def engineAtStart (magA magB : MagazineRecord) (lampLow sheetBad : Bool) (e : Engine) : Engine :=
  { e with
    state := .held, phase := none, current := none, handle := 0, line := 0
    holds := { HoldSet.labHaltOnly with sheetBad }
    selectPending := false, switchTimer := none, buffer1 := .empty, buffer2 := .empty
    firstLineTimer := false, lampTimer := lampLow, lampIsLow := lampLow, magA, magB
    awaitingSettings := false, selectionWaiting := false, switchWaiting := false
    head := .unlit, actuator := e.active }

/-- The print path is emptied (R40, R54, R55, R96, R155), in R54's order: a queued strip leaves the queue and
its record the pool; the train's units, head first, and then the engine's unit are reset-spoiled, and their
reprints take the lowest FREE records; the run count and held cause are cleared. The calibration is abandoned
last, so the record of a strip being READ returns after the reprints took theirs (log entry 35). -/
def stopPath (s : State) : State :=
  let s1 := (s.leaveQueue s.queue.strip).releaseUnits s.queue.strip
  let s2 := resetSpoilAll s1.inFlight s1
  let s3 := resetCalibration { s2 with
    transit := { s2.transit with train := [], consecutiveBlind := 0, waitingMarks := [] }
    engine := { s2.engine with current := none } }
  { s3 with queue := { s3.queue with runCount := 0, heldCause := none } }

/-- The end of a retained start or warm reset: the pricing pass and the held trial (R13, R130). -/
def endStart (s : State) : State := settle (pricingPass s).oweTrial

/-! ### Cold start (R185) -/

/-- A cold start: every block at its cold-start values, the sheets checked. Kept are only the sheets, and
the model's own counters of free values and output pulses. -/
def coldStart (sensed : Sensed) (s : State) : State :=
  let s0 := cutCycle s
  let base := { State.reset with
    store := s0.store, draws := s0.draws, pending := s0.pending
    engine := { Engine.reset with advances := s0.engine.advances }
    transit := { Transit.reset with cutterCommands := s0.transit.cutterCommands } }
  let s1 := readCopies (storeCheck base)
  { s1 with
    engine := engineAtStart (senseMagazine sensed.magA 0) (senseMagazine sensed.magB 0)
      sensed.lampLow s1.store.holdsEngine s1.engine
    sorter := { s1.sorter with bins := senseDoors sensed.doorsOpen s1.sorter.bins } }

/-! ### Retained start (R185) -/

/-- A DRAFT's idle seconds at a retained start (R31). -/
def zeroIdle (o : Order) : Order := if o.state = .draft then { o with idle := 0 } else o

/-- What a retained start clears before it checks the store: notices, link, clock, and the work that waited on
a write cycle. The wrong bits that the storage gained join those it holds. -/
def retainedClear (upsets : List Upset) (s : State) : State :=
  { s with
    power := .on, notices := NoticeUnit.reset, link := LinkController.reset, clock := ShopClock.reset
    memory := { s.memory with upsets := s.memory.upsets ++ upsets }
    orders := { s.orders with draftCheckDue := false }
    cal := { s.cal with surfaces := s.cal.surfaces.map fun r => { r with checkWaiting := false } } }

/-- A retained start (R185): notices cleared, the store checked, the slots walked, the units in flight
reset-spoiled, the blocks restarted with their kept state. -/
def retainedStart (sensed : Sensed) (upsets : List Upset) (s : State) : State :=
  let s1 := walkSlots (readCopies (storeCheck (retainedClear upsets (cutCycle s))))
  let s2 := { s1 with orders := { s1.orders with slots := s1.orders.slots.map (Option.map zeroIdle) } }
  let s3 := stopPath s2
  endStart { s3 with
    transit := { s3.transit with path := 0, strayMarks := 0, blindCuts := 0 }
    sorter := { s3.sorter with bins := senseDoors sensed.doorsOpen s3.sorter.bins, gate := .reject }
    engine := { engineAtStart (senseMagazine sensed.magA s3.engine.magA.remaining)
        (senseMagazine sensed.magB s3.engine.magB.remaining) sensed.lampLow s3.store.holdsEngine
        s3.engine with discardedLines := 0 } }

/-! ### Warm reset (R166, R185) -/

/-- The link's values after a warm reset (R166, R173). -/
def LinkController.warm (k : LinkController) : LinkController :=
  { k with inFrame := false, queue := [], phase := .idle, violation := none, violationOverflow := 0 }

/-- The notices after a warm reset: cleared, enables kept (R185). -/
def NoticeUnit.warm (n : NoticeUnit) : NoticeUnit := { kinds := n.kinds.map Notice.cleared }

/-- The warm reset reaches every block (R166). -/
def warmReset (magA magB : SensedMagazine) (s : State) : State :=
  let s1 := stopPath { s with link := s.link.warm, notices := s.notices.warm }
  endStart { s1 with
    sorter := { s1.sorter with gate := .reject }
    engine := engineAtStart (senseKeeping magA s1.engine.magA) (senseKeeping magB s1.engine.magB)
      s1.engine.lampIsLow s1.store.holdsEngine s1.engine }

/-- Whether the warm reset takes effect: the response to RESET has been sent and no write cycle is running
(R166). -/
def warmResetDue (s : State) : Bool :=
  s.power == .on && s.link.phase == .resetting && !s.cycleRuns

/-! ### Loss of power and the reset input (R183, R185) -/

/-- The part stops: a running write cycle is cut short and the head goes dark. -/
def stopPart (power : Power) (s : State) : State :=
  { (cutCycle s).mapEngine (fun e => { e with head := .unlit }) with power }

/-! ### The commands -/

/-- COLD_START (R185). -/
def execColdStart (sensed : Sensed) (s : State) : Host.Outcome State Fault Refusal :=
  .next (coldStart sensed s)

/-- RETAINED_START (R185). -/
def execRetainedStart (sensed : Sensed) (upsets : List Upset) (s : State) :
    Host.Outcome State Fault Refusal :=
  .next (retainedStart sensed upsets s)

/-- RESET_INPUT_ASSERTED (R185); a part without power stays off. -/
def execResetInputAsserted (s : State) : Host.Outcome State Fault Refusal :=
  .next (if s.power = .off then s else stopPart .inReset s)

/-- WARM_RESET_EFFECT (R166). -/
def execWarmResetEffect (magA magB : SensedMagazine) (s : State) : Host.Outcome State Fault Refusal :=
  .next (if warmResetDue s then warmReset magA magB s else s)

/-- POWER_LOSS (R183). -/
def execPowerLoss (s : State) : Host.Outcome State Fault Refusal :=
  .next (if s.power = .off then s else stopPart .off s)

end Sys2Proof.Machine
end

