-- ==== Sys2Proof/Machine/Requests.lean ====
section
/-! DEFINITION. The meanings of the request rows: one definition for each request of the catalogue (R167), and
of the link's own events. A request row hands its request, past the link's tests, to its owning block while
the Link Controller is IDLE, and the answer becomes the response being sent (R162, log entry 9). -/

namespace Sys2Proof.Machine

/-- Whether a request can be handed to its owning block: the part runs and the Link Controller is IDLE. -/
def State.accepts (s : State) : Bool := s.power == .on && s.link.phase == .idle

/-- A request is handed to its owning block, and its answer concluded (R162). -/
def serve (h : Header) (r : Request) (decision : State → Reply × State) (s : State) : State :=
  if s.accepts then conclude h false r s.link.queue.length (decision s) else s

/-- A request whose action can signal the engine or owe a held trial: `serve`, and then the engine's answer
and the trial (R13, R48). -/
def serveActing (h : Header) (r : Request) (decision : State → Reply × State) (s : State) : State :=
  if s.accepts then settle (conclude h false r s.link.queue.length (decision s)) else s

/-- The part takes an event while it runs (R185). -/
def whileOn (event : State → State) (s : State) : State := if s.power = .on then event s else s

/-- An event that can signal the engine or owe a held trial (R13, R48). -/
def whileOnActing (event : State → State) (s : State) : State :=
  if s.power = .on then settle (event s) else s

/-! ### The link (chapter 10) -/

/-- FRAME_RECEIVED (R160). -/
def execFrameReceived (line : List Byte) (s : State) : Host.Outcome State Fault Refusal :=
  .next (whileOn (fun s => s.mapLink (takeMarker line)) s)

/-- LINK_CHARACTER_ERROR (R156). -/
def execLinkCharacterError (s : State) : Host.Outcome State Fault Refusal :=
  .next (whileOn (fun s => s.mapLink dropGathered) s)

/-- FRAME_OVERSIZE (R157). -/
def execFrameOversize (s : State) : Host.Outcome State Fault Refusal :=
  .next (whileOn (fun s => s.mapLink dropGathered) s)

/-- MARKER_RECEIVED_IN_HUNT (R156). -/
def execMarkerReceivedInHunt (s : State) : Host.Outcome State Fault Refusal :=
  .next (whileOn (fun s => s.mapLink fun k => { k with inFrame := true }) s)

/-- REQUEST_TAKEN (R162, R163). -/
def execRequestTaken (s : State) : Host.Outcome State Fault Refusal :=
  .next (whileOnActing takeRequest s)

/-- RESPONSE_SENT (R162, R166). -/
def execResponseSent (s : State) : Host.Outcome State Fault Refusal :=
  .next (whileOn responseSent s)

/-! ### Order Records (chapter 2) -/

/-- OPEN_ORDER (R6). -/
def execOpenOrder (h : Header) (cls : Nat) (promise : Option Nat) (customerTag : Option (List Byte))
    (s : State) : Host.Outcome State Fault Refusal :=
  .next (serveActing h (.openOrder cls promise customerTag)
    (decideOpenOrder h.source cls promise customerTag) s)

/-- ADD_LINE (R8). -/
def execAddLine (h : Header) (number : Nat) (line : LineItem) (s : State) :
    Host.Outcome State Fault Refusal :=
  .next (serveActing h (.addLine number line) (decideAddLine false number line) s)

/-- CHANGE_LINE (R9). -/
def execChangeLine (h : Header) (number position : Nat) (line : LineItem) (s : State) :
    Host.Outcome State Fault Refusal :=
  .next (serveActing h (.changeLine number position line)
    (decideChangeLine false number position line) s)

/-- DROP_LINE (R10). -/
def execDropLine (h : Header) (number position : Nat) (s : State) : Host.Outcome State Fault Refusal :=
  .next (serveActing h (.dropLine number position) (decideDropLine number position) s)

/-- SUBMIT (R12). -/
def execSubmit (h : Header) (number : Nat) (s : State) : Host.Outcome State Fault Refusal :=
  .next (serveActing h (.submit number) (decideSubmit false number) s)

/-- WITHDRAW (R14). -/
def execWithdraw (h : Header) (number : Nat) (s : State) : Host.Outcome State Fault Refusal :=
  .next (serveActing h (.withdraw number) (decideWithdraw number) s)

/-- CANCEL (R20 to R23). -/
def execCancel (h : Header) (number : Nat) (s : State) : Host.Outcome State Fault Refusal :=
  .next (serveActing h (.cancel number) (decideCancel number) s)

/-- READ_ORDER (R26). -/
def execReadOrder (h : Header) (number : Nat) (s : State) : Host.Outcome State Fault Refusal :=
  .next (serveActing h (.readOrder number) (decideReadOrder number) s)

/-- FIND_ORDERS (R27). -/
def execFindOrders (h : Header) (selector : Selector) (start : Nat) (s : State) :
    Host.Outcome State Fault Refusal :=
  .next (serveActing h (.findOrders selector start) (decideFindOrders h.source selector start) s)

/-- SET_CLOCK (R29). -/
def execSetClock (h : Header) (minute second : Nat) (s : State) : Host.Outcome State Fault Refusal :=
  .next (serveActing h (.setClock minute second) (decideSetClock minute second) s)

/-- READ_CLOCK (R28). -/
def execReadClock (h : Header) (s : State) : Host.Outcome State Fault Refusal :=
  .next (serve h .readClock decideReadClock s)

/-- RETRY_FAULT (R17, R41). -/
def execRetryFault (h : Header) (number : Nat) (s : State) : Host.Outcome State Fault Refusal :=
  .next (serveActing h (.retryFault number) (decideRetryFault number) s)

/-! ### The Exposure Queue (chapter 3) -/

/-- PROMOTE (R45). -/
def execPromote (h : Header) (number : Nat) (s : State) : Host.Outcome State Fault Refusal :=
  .next (serveActing h (.promote number) (decidePromote number) s)

/-- READ_QUEUE (R52). -/
def execReadQueue (h : Header) (start : Nat) (number : Option Nat) (s : State) :
    Host.Outcome State Fault Refusal :=
  .next (serveActing h (.readQueue start number) (decideReadQueue start number) s)

/-! ### The engine and magazines (chapter 5) -/

/-- HALT (R73). -/
def execHalt (h : Header) (s : State) : Host.Outcome State Fault Refusal :=
  .next (serve h .halt decideHalt s)

/-- RESUME (R74). -/
def execResume (h : Header) (s : State) : Host.Outcome State Fault Refusal :=
  .next (serveActing h .resume decideResume s)

/-- SELECT_MAGAZINE (R86). -/
def execSelectMagazine (h : Header) (s : State) : Host.Outcome State Fault Refusal :=
  .next (serveActing h .selectMagazine decideSelectMagazine s)

/-- LOAD_MAGAZINE (R82). -/
def execLoadMagazine (h : Header) (magazine metres : Nat) (s : State) :
    Host.Outcome State Fault Refusal :=
  .next (serveActing h (.loadMagazine magazine metres) (decideLoadMagazine magazine metres) s)

/-- LUT_WRITE (R91). -/
def execLutWrite (h : Header) (bank channel start : Nat) (levels : List Nat) (s : State) :
    Host.Outcome State Fault Refusal :=
  .next (serve h (.lutWrite bank channel start levels) (decideLutWrite bank channel start levels) s)

/-- LUT_SWITCH (R91). -/
def execLutSwitch (h : Header) (s : State) : Host.Outcome State Fault Refusal :=
  .next (serve h .lutSwitch decideLutSwitch s)

/-- READ_ENGINE (R93). -/
def execReadEngine (h : Header) (s : State) : Host.Outcome State Fault Refusal :=
  .next (serve h .readEngine decideReadEngine s)

/-! ### The train (chapter 6) -/

/-- CLEAR_FAULT (R105). -/
def execClearFault (h : Header) (clearCounts : Option Bool) (s : State) :
    Host.Outcome State Fault Refusal :=
  .next (serveActing h (.clearFault clearCounts) (decideClearFault clearCounts) s)

/-- READ_TRAIN (R110). -/
def execReadTrain (h : Header) (place : Nat) (s : State) : Host.Outcome State Fault Refusal :=
  .next (serve h (.readTrain place) (decideReadTrain place) s)

/-! ### The sorter and the counter (chapters 7 and 8) -/

/-- COLLECT (R124, R125). -/
def execCollect (h : Header) (number : Nat) (s : State) : Host.Outcome State Fault Refusal :=
  .next (serveActing h (.collect number) (decideCollect number) s)

/-- READ_BINS (R127). -/
def execReadBins (h : Header) (s : State) : Host.Outcome State Fault Refusal :=
  .next (serve h .readBins decideReadBins s)

/-- EMPTY_TRAYS (R126). -/
def execEmptyTrays (h : Header) (selection : Nat) (s : State) : Host.Outcome State Fault Refusal :=
  .next (serve h (.emptyTrays selection) (decideEmptyTrays selection) s)

/-- QUOTE (R137, R138). -/
def execQuote (h : Header) (number : Nat) (s : State) : Host.Outcome State Fault Refusal :=
  .next (serveActing h (.quote number) (decideQuote number) s)

/-- PAY (R139, R140). -/
def execPay (h : Header) (number amount : Nat) (s : State) : Host.Outcome State Fault Refusal :=
  .next (serveActing h (.pay number amount) (decidePay number amount) s)

/-! ### Calibration (chapter 9) -/

/-- START_CAL (R147). -/
def execStartCal (h : Header) (surface : Nat) (s : State) : Host.Outcome State Fault Refusal :=
  .next (serveActing h (.startCal surface) (decideStartCal surface) s)

/-- WAIVE_CAL (R146). -/
def execWaiveCal (h : Header) (surface : Nat) (s : State) : Host.Outcome State Fault Refusal :=
  .next (serveActing h (.waiveCal surface) (decideWaiveCal surface) s)

/-- READ_CAL (R154). -/
def execReadCal (h : Header) (surface : Nat) (s : State) : Host.Outcome State Fault Refusal :=
  .next (serve h (.readCal surface) (decideReadCal surface) s)

/-! ### Link setup, reset and violations (chapter 10) -/

/-- LINK_SETUP (R165). -/
def execLinkSetup (h : Header) (address lab : Option Nat) (s : State) :
    Host.Outcome State Fault Refusal :=
  .next (serve h (.linkSetup address lab) (decideLinkSetup address lab) s)

/-- RESET (R166). -/
def execReset (h : Header) (s : State) : Host.Outcome State Fault Refusal :=
  .next (serve h .reset decideReset s)

/-- READ_LINK (R172). -/
def execReadLink (h : Header) (s : State) : Host.Outcome State Fault Refusal :=
  .next (serve h .readLink (decideReadLink s.link.queue.length) s)

/-- READ_VIOLATION (R172). -/
def execReadViolation (h : Header) (s : State) : Host.Outcome State Fault Refusal :=
  .next (serve h .readViolation decideReadViolation s)

/-- CLEAR_VIOLATION (R172). -/
def execClearViolation (h : Header) (s : State) : Host.Outcome State Fault Refusal :=
  .next (serve h .clearViolation decideClearViolation s)

/-! ### Notices, the store, damaged slots (chapter 11) -/

/-- READ_NOTICES (R175). -/
def execReadNotices (h : Header) (s : State) : Host.Outcome State Fault Refusal :=
  .next (serve h .readNotices decideReadNotices s)

/-- CLEAR_NOTICE (R176). -/
def execClearNotice (h : Header) (kind : Nat) (s : State) : Host.Outcome State Fault Refusal :=
  .next (serve h (.clearNotice kind) (decideClearNotice kind) s)

/-- SET_NOTICE_ENABLES (R176). -/
def execSetNoticeEnables (h : Header) (mask : BitVec 16) (s : State) :
    Host.Outcome State Fault Refusal :=
  .next (serve h (.setNoticeEnables mask) (decideSetNoticeEnables mask) s)

/-- STORE_READ (R181). -/
def execStoreRead (h : Header) (sheet start count : Nat) (s : State) :
    Host.Outcome State Fault Refusal :=
  .next (serve h (.storeRead sheet start count) (decideStoreRead sheet start count) s)

/-- STORE_WRITE (R182). -/
def execStoreWrite (h : Header) (sheet start : Nat) (values : List Word32) (s : State) :
    Host.Outcome State Fault Refusal :=
  .next (serve h (.storeWrite sheet start values) (decideStoreWrite sheet start values) s)

/-- RELEASE_DAMAGED (R179). -/
def execReleaseDamaged (h : Header) (slot : Nat) (s : State) : Host.Outcome State Fault Refusal :=
  .next (serveActing h (.releaseDamaged slot) (decideReleaseDamaged slot) s)

end Sys2Proof.Machine
end

