-- ==== Sys2Proof/Machine/Events.lean ====
section
/-! DEFINITION. The meanings of the event rows: the store, the clock, the engine, magazines, the train, the
densitometer and the doors. -/

namespace Sys2Proof.Machine

/-! ### The store's write cycle (R183) -/

/-- The follow-ups of a cycle's end that the written sheet calls for, after the sheet's values are in force
(R183's table): SHEET_BAD goes when SIZE and CALIBRATION are both good, and a write of CALIBRATION or GENERAL
signals the queue (R48, R72). -/
def sheetFollowUps (name : SheetName) (s : State) : State :=
  let s1 :=
    if (name = .size ∨ name = .calibration) ∧ s.store.holdsEngine = false then removeHold .sheetBad s
    else s
  if name = .calibration ∨ name = .general then s1.signal else s1

/-- A write cycle ends (R183): the sheet may become good, the copies are read, the pending figures set, the
draft comparison, the pricing pass, the held trial and the due comparisons made. The pending figures are set and
the waiting marks decided before a warm reset that waits on the same cycle (log entry 14). -/
def endCycle (s : State) : State :=
  match s.store.cycle with
  | none => s
  | some c =>
    let good := (s.store.sheet c.sheet).cycleEnded
    let s1 := { s with store := { s.store.setSheet c.sheet good with cycle := none } }
    let s2 := if c.sheet = .general then readCopies s1 else s1
    let s3 := pricingPass (draftTimeouts (setPendingFigures s2))
    let s4 := runTrials (if c.sheet = .size then s3.oweTrial else s3)
    sheetFollowUps c.sheet (dueComparisons (c.sheet == .calibration) s4)

/-- A read that waited on a write cycle is made and its work decided (R183). Nothing proceeds while a cycle
runs or when the work named does not wait. A selection that waits in RESETTING is never answered: the reset
abandons it (R55). A unit start and a strip's result may come before the reset (R68, R153). -/
def proceed (work : WaitingWork) (s : State) : State :=
  if s.cycleRuns then s
  else
    match work with
    | .request => resumeRequest s
    | .selection =>
      if s.engine.selectionWaiting = true ∧ s.engine.state = .idle ∧ s.link.phase ≠ .resetting then
        makeSelection s
      else s
    | .unitStart =>
      match s.engine.awaitingSettings, s.engine.current with
      | true, some id => completeStart id s
      | _, _ => s
    | .switchTime => if s.engine.switchWaiting then startSwitchTimer s else s
    | .calibrationResult =>
      match s.cal.strip with
      | .settling u values => takeResult u values s
      | _ => s

/-- WRITE_CYCLE_END (R183). -/
def execWriteCycleEnd (s : State) : Host.Outcome State Fault Refusal :=
  .next (whileOnActing endCycle s)

/-- WAITING_READ_PROCEEDS (R183). -/
def execWaitingReadProceeds (work : WaitingWork) (s : State) : Host.Outcome State Fault Refusal :=
  .next (whileOnActing (proceed work) s)

/-! ### The Shop Clock (R11, R28, R30) -/

/-- A second event: the clock advances and the drafts' idle seconds rise (R28, R11). -/
def takeSecond (s : State) : State := idleSeconds { s with clock := s.clock.tick }

/-- A minute event, when the seconds passed 59: the late check (R28, R30). -/
def takeMinute (s : State) : State :=
  if s.clock.minuteDue then lateCheck { s with clock := { s.clock with minuteDue := false } } else s

/-- SECOND_EVENT (R28). -/
def execSecondEvent (s : State) : Host.Outcome State Fault Refusal :=
  .next (whileOnActing takeSecond s)

/-- DRAFT_TIMEOUT (R11). -/
def execDraftTimeout (s : State) : Host.Outcome State Fault Refusal :=
  .next (whileOnActing draftTimeouts s)

/-- MINUTE_EVENT (R28, R30). -/
def execMinuteEvent (s : State) : Host.Outcome State Fault Refusal :=
  .next (whileOnActing takeMinute s)

/-! ### The engine (chapter 5) -/

/-- The switch timer expires (R85): the other magazine becomes the active one, and a boundary follows. -/
def switchExpired (s : State) : State :=
  if s.engine.switchTimer.isSome then
    boundary (s.mapEngine fun e => { e with
      active := e.active.other, switchTimer := none, actuator := e.active.other })
  else s

/-- The lamp supply goes low (R92). -/
def lampGoesLow (e : Engine) : Engine :=
  if e.lampIsLow then e
  else { e with lampIsLow := true, lampTimer := e.lampTimer || !e.holds.lampLow }

/-- The lamp supply recovers (R92): a running timer stops, or LAMP_LOW is removed. -/
def lampRecovers (s : State) : State :=
  if s.engine.lampIsLow then
    removeHold .lampLow (s.mapEngine fun e => { e with lampIsLow := false, lampTimer := false })
  else s

/-- LINE_PERIOD_END (R76). -/
def execLinePeriodEnd (s : State) : Host.Outcome State Fault Refusal :=
  .next (whileOnActing endLine s)

/-- SWITCH_TIMER_EXPIRY (R85). -/
def execSwitchTimerExpiry (s : State) : Host.Outcome State Fault Refusal :=
  .next (whileOnActing switchExpired s)

/-- FIRST_LINE_TIMEOUT (R89). -/
def execFirstLineTimeout (s : State) : Host.Outcome State Fault Refusal :=
  .next (whileOnActing firstLineExpired s)

/-- IMAGE_DELIVERY (R88). -/
def execImageDelivery (unit line : Nat) (pixels : List Pixel) (s : State) :
    Host.Outcome State Fault Refusal :=
  .next (whileOn (takeDelivery unit line pixels) s)

/-- LAMP_SUPPLY_LOW (R92). -/
def execLampSupplyLow (s : State) : Host.Outcome State Fault Refusal :=
  .next (whileOn (fun s => s.mapEngine lampGoesLow) s)

/-- LAMP_SUPPLY_RECOVERY (R92). -/
def execLampSupplyRecovery (s : State) : Host.Outcome State Fault Refusal :=
  .next (whileOnActing lampRecovers s)

/-- LAMP_TIMER_EXPIRY (R92). -/
def execLampTimerExpiry (s : State) : Host.Outcome State Fault Refusal :=
  .next (whileOnActing lampExpired s)

/-! ### Magazines (R80, R81) -/

/-- A magazine becomes present (R80): it keeps the remaining length its record held. -/
def insertMagazine (m : Magazine) (widthCode surfaceCode : Nat) (paperEnd : Bool) (s : State) : State :=
  let r := s.engine.mag m
  if r.present then s
  else
    s.setMag m (senseMagazine { present := true, widthCode, surfaceCode, paperEnd } r.remaining)

/-- A magazine's presence is lost (R81). -/
def removeMagazine (m : Magazine) (s : State) : State :=
  if (s.engine.mag m).present then paperOut m MagazineRecord.absent s else s

/-- A magazine's paper-end sensor goes active (R81); with the flag set already it is no event. -/
def takePaperEnd (m : Magazine) (s : State) : State :=
  let r := s.engine.mag m
  if r.paperEnd then s else paperOut m { r with paperEnd := true } s

/-- A present magazine's paper-end sensor goes inactive (R80). -/
def clearPaperEnd (m : Magazine) (s : State) : State :=
  let r := s.engine.mag m
  if r.present && r.paperEnd then s.setMag m { r with paperEnd := false } else s

/-- MAGAZINE_INSERTED (R80). -/
def execMagazineInserted (m : Magazine) (widthCode surfaceCode : Nat) (paperEnd : Bool) (s : State) :
    Host.Outcome State Fault Refusal :=
  .next (whileOnActing (insertMagazine m widthCode surfaceCode paperEnd) s)

/-- MAGAZINE_REMOVED (R81). -/
def execMagazineRemoved (m : Magazine) (s : State) : Host.Outcome State Fault Refusal :=
  .next (whileOnActing (removeMagazine m) s)

/-- PAPER_END (R81). -/
def execPaperEnd (m : Magazine) (s : State) : Host.Outcome State Fault Refusal :=
  .next (whileOnActing (takePaperEnd m) s)

/-- PAPER_END_CLEAR (R80). -/
def execPaperEndClear (m : Magazine) (s : State) : Host.Outcome State Fault Refusal :=
  .next (whileOnActing (clearPaperEnd m) s)

/-! ### The train (chapter 6) -/

/-- ENCODER_EVENT (R97). -/
def execEncoderEvent (s : State) : Host.Outcome State Fault Refusal :=
  .next (whileOn (fun s => s.mapTransit fun t => { t with path := t.path + 1 }) s)

/-- WINDOW_EXPIRY (R102). -/
def execWindowExpiry (s : State) : Host.Outcome State Fault Refusal :=
  .next (whileOnActing expireAll s)

/-- MARK_EVENT (R100). -/
def execMarkEvent (s : State) : Host.Outcome State Fault Refusal :=
  .next (whileOnActing takeMark s)

/-! ### The densitometer and the doors (R120, R150) -/

/-- CONVERSION_END (R150); the converter gives ten bits. -/
def execConversionEnd (value : Nat) (s : State) : Host.Outcome State Fault Refusal :=
  .next (whileOnActing (takeConversion (value % 1024)) s)

/-- BIN_DOOR_OPEN (R120 to R122). -/
def execBinDoorOpen (bin : Nat) (s : State) : Host.Outcome State Fault Refusal :=
  .next (whileOnActing (doorOpens bin) s)

/-- BIN_DOOR_CLOSE (R120, R122, R123). -/
def execBinDoorClose (bin : Nat) (s : State) : Host.Outcome State Fault Refusal :=
  .next (whileOnActing (doorCloses bin) s)

end Sys2Proof.Machine
end

