-- ==== Sys2Proof/Machine/Dispatch.lean ====
section
/-! DEFINITION. One arm for each command: one direct call of its meaning. -/

namespace Sys2Proof.Machine

def exec (i : Instr) (s : State) : Host.Outcome State Fault Refusal :=
  match i with
  | .coldStart sensed => Sys2Proof.Machine.execColdStart sensed s
  | .retainedStart sensed upsets => Sys2Proof.Machine.execRetainedStart sensed upsets s
  | .resetInputAsserted => Sys2Proof.Machine.execResetInputAsserted s
  | .warmResetEffect magA magB => Sys2Proof.Machine.execWarmResetEffect magA magB s
  | .frameReceived line => Sys2Proof.Machine.execFrameReceived line s
  | .linkCharacterError => Sys2Proof.Machine.execLinkCharacterError s
  | .frameOversize => Sys2Proof.Machine.execFrameOversize s
  | .requestTaken => Sys2Proof.Machine.execRequestTaken s
  | .responseSent => Sys2Proof.Machine.execResponseSent s
  | .openOrder h cls promise customerTag => Sys2Proof.Machine.execOpenOrder h cls promise customerTag s
  | .addLine h number line => Sys2Proof.Machine.execAddLine h number line s
  | .changeLine h number position line => Sys2Proof.Machine.execChangeLine h number position line s
  | .dropLine h number position => Sys2Proof.Machine.execDropLine h number position s
  | .submit h number => Sys2Proof.Machine.execSubmit h number s
  | .withdraw h number => Sys2Proof.Machine.execWithdraw h number s
  | .cancel h number => Sys2Proof.Machine.execCancel h number s
  | .readOrder h number => Sys2Proof.Machine.execReadOrder h number s
  | .findOrders h selector start => Sys2Proof.Machine.execFindOrders h selector start s
  | .setClock h minute second => Sys2Proof.Machine.execSetClock h minute second s
  | .readClock h => Sys2Proof.Machine.execReadClock h s
  | .retryFault h number => Sys2Proof.Machine.execRetryFault h number s
  | .promote h number => Sys2Proof.Machine.execPromote h number s
  | .readQueue h start number => Sys2Proof.Machine.execReadQueue h start number s
  | .halt h => Sys2Proof.Machine.execHalt h s
  | .resume h => Sys2Proof.Machine.execResume h s
  | .selectMagazine h => Sys2Proof.Machine.execSelectMagazine h s
  | .loadMagazine h magazine metres => Sys2Proof.Machine.execLoadMagazine h magazine metres s
  | .lutWrite h bank channel start levels => Sys2Proof.Machine.execLutWrite h bank channel start levels s
  | .lutSwitch h => Sys2Proof.Machine.execLutSwitch h s
  | .readEngine h => Sys2Proof.Machine.execReadEngine h s
  | .clearFault h clearCounts => Sys2Proof.Machine.execClearFault h clearCounts s
  | .readTrain h place => Sys2Proof.Machine.execReadTrain h place s
  | .collect h number => Sys2Proof.Machine.execCollect h number s
  | .readBins h => Sys2Proof.Machine.execReadBins h s
  | .emptyTrays h selection => Sys2Proof.Machine.execEmptyTrays h selection s
  | .quote h number => Sys2Proof.Machine.execQuote h number s
  | .pay h number amount => Sys2Proof.Machine.execPay h number amount s
  | .startCal h surface => Sys2Proof.Machine.execStartCal h surface s
  | .waiveCal h surface => Sys2Proof.Machine.execWaiveCal h surface s
  | .readCal h surface => Sys2Proof.Machine.execReadCal h surface s
  | .linkSetup h address lab => Sys2Proof.Machine.execLinkSetup h address lab s
  | .reset h => Sys2Proof.Machine.execReset h s
  | .readLink h => Sys2Proof.Machine.execReadLink h s
  | .readViolation h => Sys2Proof.Machine.execReadViolation h s
  | .clearViolation h => Sys2Proof.Machine.execClearViolation h s
  | .readNotices h => Sys2Proof.Machine.execReadNotices h s
  | .clearNotice h kind => Sys2Proof.Machine.execClearNotice h kind s
  | .setNoticeEnables h mask => Sys2Proof.Machine.execSetNoticeEnables h mask s
  | .storeRead h sheet start count => Sys2Proof.Machine.execStoreRead h sheet start count s
  | .storeWrite h sheet start values => Sys2Proof.Machine.execStoreWrite h sheet start values s
  | .releaseDamaged h slot => Sys2Proof.Machine.execReleaseDamaged h slot s
  | .writeCycleEnd => Sys2Proof.Machine.execWriteCycleEnd s
  | .waitingReadProceeds work => Sys2Proof.Machine.execWaitingReadProceeds work s
  | .secondEvent => Sys2Proof.Machine.execSecondEvent s
  | .draftTimeout => Sys2Proof.Machine.execDraftTimeout s
  | .minuteEvent => Sys2Proof.Machine.execMinuteEvent s
  | .linePeriodEnd => Sys2Proof.Machine.execLinePeriodEnd s
  | .switchTimerExpiry => Sys2Proof.Machine.execSwitchTimerExpiry s
  | .firstLineTimeout => Sys2Proof.Machine.execFirstLineTimeout s
  | .imageDelivery unit line pixels => Sys2Proof.Machine.execImageDelivery unit line pixels s
  | .lampSupplyLow => Sys2Proof.Machine.execLampSupplyLow s
  | .lampSupplyRecovery => Sys2Proof.Machine.execLampSupplyRecovery s
  | .lampTimerExpiry => Sys2Proof.Machine.execLampTimerExpiry s
  | .magazineInserted magazine widthCode surfaceCode paperEnd => Sys2Proof.Machine.execMagazineInserted magazine widthCode surfaceCode paperEnd s
  | .magazineRemoved magazine => Sys2Proof.Machine.execMagazineRemoved magazine s
  | .paperEnd magazine => Sys2Proof.Machine.execPaperEnd magazine s
  | .paperEndClear magazine => Sys2Proof.Machine.execPaperEndClear magazine s
  | .encoderEvent => Sys2Proof.Machine.execEncoderEvent s
  | .windowExpiry => Sys2Proof.Machine.execWindowExpiry s
  | .markEvent => Sys2Proof.Machine.execMarkEvent s
  | .conversionEnd value => Sys2Proof.Machine.execConversionEnd value s
  | .binDoorOpen bin => Sys2Proof.Machine.execBinDoorOpen bin s
  | .binDoorClose bin => Sys2Proof.Machine.execBinDoorClose bin s
  | .markerReceivedInHunt => Sys2Proof.Machine.execMarkerReceivedInHunt s
  | .powerLoss => Sys2Proof.Machine.execPowerLoss s

end Sys2Proof.Machine
end

