-- ==== Sys2Proof/Safety.lean ====
section
/-! DEFINITION. What counts as a sound state and as the answer of a request, in the terms the claims use: the
ranges and shapes the manual gives the part's state, the agreement of a good sheet with its check value, the
bound of the paper train, and the conditions under which a request is decided with nothing else going on. -/

namespace Sys2Proof.Machine

/-! ### Answers, and states with nothing else going on -/

/-- The state in which the response to a request is being sent: it goes to the sending station from the part's
link address, with the request's code plus 80 hex and its tag (R158, R162). Nothing else changes. -/
def State.answered (s : State) (h : Header) (r : Request) (status : Status) (body : List Byte) :
    State :=
  { s with link := { s.link with
      phase := .sending { destination := h.source, source := s.link.address
                          code := requestCode r + 0x80, tag := h.tag, status, body }
        (decide (r = .reset)) } }

/-- The part runs, its link is IDLE, and nothing that an earlier event called for is still owed: a request
handed over now meets no other work. -/
structure Calm (s : State) : Prop where
  accepts  : s.accepts = true
  noSignal : s.queue.signal = false
  noTrial  : s.orders.trialDue = false

/-- The part runs, and nothing that an earlier event called for is still owed. -/
structure Running (s : State) : Prop where
  power    : s.power = .on
  noSignal : s.queue.signal = false
  noTrial  : s.orders.trialDue = false

/-- No stored word of any slot has a wrong bit. -/
def CleanStorage (s : State) : Prop := s.memory.upsets = []

/-- The order number `n` is held by the live slot `i`, whose order `o` is not DAMAGED (R4, R5). -/
structure Names (s : State) (n i : Nat) (o : Order) : Prop where
  found : s.findOrder n = some i
  held  : s.order? i = some o
  sound : o.state ≠ .damaged

/-! ### Sound state -/

/-- The ranges of the Shop Clock (R28). -/
structure ShopClock.Wf (c : ShopClock) : Prop where
  minute : c.minute ≤ 10079
  second : c.second ≤ 59

/-- A notice kind: its count saturates at 255, and it is pending, counted and detailed together (R174,
R176). -/
structure Notice.Wf (n : Notice) : Prop where
  count   : n.count ≤ 255
  pending : n.pending = decide (0 < n.count)
  detail  : n.detail.isSome = n.pending

/-- The link: its queue's capacity, the ranges of its counts, and a lab station named exactly when it is set
up (R160, R161, R165, R171). -/
structure LinkController.Wf (k : LinkController) : Prop where
  queue     : k.queue.length ≤ Config.receiveLimit
  lab       : k.lab.isSome = k.setUp
  overflow  : k.violationOverflow ≤ 255
  badForm   : k.badForm ≤ 65535
  badCheck  : k.badCheck ≤ 65535
  badSource : k.badSource ≤ 65535
  overrun   : k.overrun ≤ 65535

/-- A sheet's shape (R180). -/
structure Sheet.Wf (sheet : Sheet) : Prop where
  entries : sheet.entries.length = 64
  pages   : sheet.pages.length = 4
  writes  : sheet.writes ≤ 65535

/-- While the part runs, a good sheet and a sheet being written agree with their check values, and a BAD
sheet has all four pages written only during the write cycle that ends its being BAD (R180, R182, R184). -/
structure SettingsStore.Checked (st : SettingsStore) (name : SheetName) : Prop where
  good : (st.sheet name).bad = false ∨ st.cycle.map WriteCycle.sheet = some name →
    checkAgrees (st.sheet name).entries = true
  bad  : (st.sheet name).bad = true → (st.sheet name).pages.all id = true →
    st.cycle.map WriteCycle.sheet = some name

/-- The lengths of the part's fixed tables: 64 slots, 512 unit records, 64 figures entries, 24 bins, 4
surfaces, 13 notice kinds. -/
def State.shape (s : State) : List Nat :=
  [s.orders.slots.length, s.queue.pool.length, s.queue.figures.length, s.sorter.bins.length,
   s.cal.surfaces.length, s.notices.kinds.length]

/-- The shape of every state of the part (R1, R33, R34, R111, R143, R174). -/
def State.partShape : List Nat := [64, 512, 64, 24, 4, 13]

/-- A sound state: every table has its length, the clock, link, notices, sheets and correction count lie in
the ranges the manual gives them, and the sheets agree with their check values. -/
structure Sound (s : State) : Prop where
  shape       : s.shape = State.partShape
  clock       : s.clock.Wf
  notices     : ∀ n ∈ s.notices.kinds, n.Wf
  link        : s.link.Wf
  corrections : s.memory.corrections ≤ 65535
  sheets      : ∀ name, (s.store.sheet name).Wf
  checked     : s.power = .on → ∀ name, s.store.Checked name

/-- The bound of the paper train (R70, R77, R98, R109): it never holds more than 64 entries, TRAIN_FULL
stands exactly while it holds 64, a unit in the engine finds room on it, and an IDLE engine has no hold
reason. -/
structure TrainBounded (s : State) : Prop where
  length : s.transit.train.length ≤ Config.trainLimit
  full   : s.engine.holds.trainFull = decide (s.transit.train.length = Config.trainLimit)
  room   : s.engine.current.isSome = true → s.transit.train.length < Config.trainLimit
  idle   : s.engine.state = .idle → s.engine.holds.isEmpty = true

end Sys2Proof.Machine
end

