-- ==== Sys2Proof/WellFormed.lean ====
section
/-! DEFINITION. The commands that can reach the part: a request's items fit the bytes the frame gives them
(R158), its source is a station (R160), and an event's levels, codes and values fit the lines that carry
them (R80, R120, R150, R177). Whether an item lies in the range its rule asks for is the rule's own test, and
no part of this check. -/

namespace Sys2Proof

open Sys2Proof.Machine

/-! ### Items (R158) -/

/-- A number that one byte holds. -/
def fits8 (n : Nat) : Bool := decide (n < 256)

/-- A number that two bytes hold. -/
def fits16 (n : Nat) : Bool := decide (n < 65536)

/-- A number that four bytes hold. -/
def fits32 (n : Nat) : Bool := decide (n < 4294967296)

/-- A signed number that one byte holds. -/
def fitsInt8 (n : Int) : Bool := decide (-128 ≤ n) && decide (n ≤ 127)

/-- A full line whose items fit (R8). -/
def LineItem.fits (l : LineItem) : Bool :=
  fits8 l.size && fits8 l.surface && fits8 l.quantity && fits8 l.border
    && fitsInt8 l.d && fitsInt8 l.c && fitsInt8 l.m && fitsInt8 l.y

/-- A selector whose items fit (R27). -/
def Selector.fits : Selector → Bool
  | .tag chars => fits8 chars.length
  | .state code => fits8 code
  | .owner station => fits8 station

/-- A request whose items fit their bytes (R158). -/
def Request.itemsFit : Request → Bool
  | .openOrder cls promise tag => fits8 cls && promise.all fits16 && tag.all fun t => fits8 t.length
  | .addLine n line => fits16 n && line.fits
  | .changeLine n position line => fits16 n && fits8 position && line.fits
  | .dropLine n position => fits16 n && fits8 position
  | .submit n => fits16 n
  | .withdraw n => fits16 n
  | .cancel n => fits16 n
  | .readOrder n => fits16 n
  | .findOrders sel start => sel.fits && fits16 start
  | .setClock minute second => fits16 minute && fits8 second
  | .readClock => true
  | .retryFault n => fits16 n
  | .promote n => fits16 n
  | .readQueue start n => fits16 start && n.all fits16
  | .halt => true
  | .resume => true
  | .selectMagazine => true
  | .loadMagazine m metres => fits8 m && fits16 metres
  | .lutWrite bank channel start levels =>
    fits8 bank && fits8 channel && fits8 start && fits8 levels.length && levels.all fits16
  | .lutSwitch => true
  | .readEngine => true
  | .clearFault _ => true
  | .readTrain place => fits8 place
  | .collect n => fits16 n
  | .readBins => true
  | .emptyTrays sel => fits8 sel
  | .quote n => fits16 n
  | .pay n amount => fits16 n && fits32 amount
  | .startCal surface => fits8 surface
  | .waiveCal surface => fits8 surface
  | .readCal surface => fits8 surface
  | .linkSetup address lab => address.all fits8 && lab.all fits8
  | .reset => true
  | .readLink => true
  | .readViolation => true
  | .clearViolation => true
  | .readNotices => true
  | .clearNotice kind => fits8 kind
  | .setNoticeEnables _ => true
  | .storeRead sheet start count => fits8 sheet && fits8 start && fits8 count
  | .storeWrite sheet start values => fits8 sheet && fits8 start && fits8 values.length
  | .releaseDamaged slot => fits8 slot
  | .unspelled code body => (readItems code body).isNone && bodyFits code body

/-- A request that a frame can carry: its items fit, and its body is at most 240 bytes (R158). -/
def Request.wf (r : Request) : Bool := r.itemsFit && decide ((requestBody r).length ≤ Config.bodyLimit)

/-- A station that can send a request (R160). -/
def Header.wf (h : Header) : Bool := decide (1 ≤ h.source) && decide (h.source ≤ 31)

/-! ### Commands -/

/-- The request a request row carries, with its header; none for an event row. -/
def Instr.request? : Instr → Option (Header × Request)
  | .coldStart _ => none
  | .retainedStart _ _ => none
  | .resetInputAsserted => none
  | .warmResetEffect _ _ => none
  | .frameReceived _ => none
  | .linkCharacterError => none
  | .frameOversize => none
  | .requestTaken => none
  | .responseSent => none
  | .openOrder h cls promise tag => some (h, .openOrder cls promise tag)
  | .addLine h n line => some (h, .addLine n line)
  | .changeLine h n position line => some (h, .changeLine n position line)
  | .dropLine h n position => some (h, .dropLine n position)
  | .submit h n => some (h, .submit n)
  | .withdraw h n => some (h, .withdraw n)
  | .cancel h n => some (h, .cancel n)
  | .readOrder h n => some (h, .readOrder n)
  | .findOrders h sel start => some (h, .findOrders sel start)
  | .setClock h minute second => some (h, .setClock minute second)
  | .readClock h => some (h, .readClock)
  | .retryFault h n => some (h, .retryFault n)
  | .promote h n => some (h, .promote n)
  | .readQueue h start n => some (h, .readQueue start n)
  | .halt h => some (h, .halt)
  | .resume h => some (h, .resume)
  | .selectMagazine h => some (h, .selectMagazine)
  | .loadMagazine h m metres => some (h, .loadMagazine m metres)
  | .lutWrite h bank channel start levels => some (h, .lutWrite bank channel start levels)
  | .lutSwitch h => some (h, .lutSwitch)
  | .readEngine h => some (h, .readEngine)
  | .clearFault h counts => some (h, .clearFault counts)
  | .readTrain h place => some (h, .readTrain place)
  | .collect h n => some (h, .collect n)
  | .readBins h => some (h, .readBins)
  | .emptyTrays h sel => some (h, .emptyTrays sel)
  | .quote h n => some (h, .quote n)
  | .pay h n amount => some (h, .pay n amount)
  | .startCal h surface => some (h, .startCal surface)
  | .waiveCal h surface => some (h, .waiveCal surface)
  | .readCal h surface => some (h, .readCal surface)
  | .linkSetup h address lab => some (h, .linkSetup address lab)
  | .reset h => some (h, .reset)
  | .readLink h => some (h, .readLink)
  | .readViolation h => some (h, .readViolation)
  | .clearViolation h => some (h, .clearViolation)
  | .readNotices h => some (h, .readNotices)
  | .clearNotice h kind => some (h, .clearNotice kind)
  | .setNoticeEnables h mask => some (h, .setNoticeEnables mask)
  | .storeRead h sheet start count => some (h, .storeRead sheet start count)
  | .storeWrite h sheet start values => some (h, .storeWrite sheet start values)
  | .releaseDamaged h slot => some (h, .releaseDamaged slot)
  | .writeCycleEnd => none
  | .waitingReadProceeds _ => none
  | .secondEvent => none
  | .draftTimeout => none
  | .minuteEvent => none
  | .linePeriodEnd => none
  | .switchTimerExpiry => none
  | .firstLineTimeout => none
  | .imageDelivery _ _ _ => none
  | .lampSupplyLow => none
  | .lampSupplyRecovery => none
  | .lampTimerExpiry => none
  | .magazineInserted _ _ _ _ => none
  | .magazineRemoved _ => none
  | .paperEnd _ => none
  | .paperEndClear _ => none
  | .encoderEvent => none
  | .windowExpiry => none
  | .markEvent => none
  | .conversionEnd _ => none
  | .binDoorOpen _ => none
  | .binDoorClose _ => none
  | .markerReceivedInHunt => none
  | .powerLoss => none

/-- A magazine's code lines: three for the width, two for the surface (R80). -/
def SensedMagazine.wf (m : SensedMagazine) : Bool :=
  decide (m.widthCode ≤ 7) && decide (m.surfaceCode ≤ 3)

/-- What a start senses: two magazines, and 24 doors (R111). -/
def Sensed.wf (x : Sensed) : Bool := x.magA.wf && x.magB.wf && x.doorsOpen.length == 24

/-- Wrong bits in a word of a slot: 1 to 39 of the word's 32 bits and its 7-bit check code (R177). -/
def Upset.wf (u : Upset) : Bool := decide (u.slot < 64) && decide (1 ≤ u.bits) && decide (u.bits ≤ 39)

/-- A bin's number (R111). -/
def binWf (n : Nat) : Bool := decide (1 ≤ n) && decide (n ≤ 24)

/-- A command that can reach the part. -/
def Instr.wf (i : Instr) : Bool :=
  match i.request? with
  | some (h, r) => h.wf && r.wf
  | none =>
    match i with
    | .coldStart sensed => sensed.wf
    | .retainedStart sensed upsets => sensed.wf && upsets.all Upset.wf
    | .warmResetEffect a b => a.wf && b.wf
    | .frameReceived line => !line.contains 0x7E#8
    | .magazineInserted _ width surface _ => decide (width ≤ 7) && decide (surface ≤ 3)
    | .conversionEnd value => decide (value ≤ 1023)
    | .binDoorOpen bin => binWf bin
    | .binDoorClose bin => binWf bin
    | _ => true

end Sys2Proof
end

