-- ==== Sys2Proof/Certificates/Slice0/Obligations.lean ====
section
/-! DEFINITION. The statements for the provers, in the order of the manual's chapters. A statement that says
what a command does concludes that `exec` answers a next state, and gives that state as a record update, so
that every field it does not name is unchanged: that is the command's frame. `settle` stands in it where the
command signals an IDLE engine or owes a held trial (`SettleAnswersTheSignal` and `HeldTrialsStopAtTheHead`
say what it does). -/

open Sys2Proof Sys2Proof.Machine

/-! ### The machine -/

/-- Log entry 2: the command at the front of the queue takes its effect on the rest, and an empty queue
idles. -/
def Obligations.StepTakesFrontCommand : Prop :=
  ∀ (c : Instr) (rest : List Instr) (s : State),
    step (s.withPending (c :: rest)) = exec c (s.withPending rest)
      ∧ step (s.withPending []) = .next (s.withPending [])

/-- Every command, with every operand and in every state, has its effect: none faults or is refused, and none
touches the queue of commands (log entry 1). A part without power takes no command but a start, and one whose reset
input is asserted none but a start, a loss of power or the input again (R185, log entry 12). While the Link
Controller holds a request, sends a response or waits for a reset, a request row has no effect: no second request
reaches its block (R162, log entry 9). -/
def Obligations.EveryCommandCompletes : Prop :=
  (∀ (c : Instr) (s : State), ∃ t, exec c s = .next t ∧ t.pending = s.pending)
  ∧ (∀ (c : Instr) (s : State), (∀ x, c ≠ .coldStart x) → (∀ x u, c ≠ .retainedStart x u) →
     (s.power = .off → exec c s = .next s)
     ∧ (s.power = .inReset → c ≠ .powerLoss → c ≠ .resetInputAsserted → exec c s = .next s))
  ∧ (∀ (c : Instr) (h : Header) (r : Request) (s : State), c.request? = some (h, r) →
     s.link.phase ≠ .idle → exec c s = .next s)

/-- The state after reset is sound and bounds the paper train. -/
def Obligations.ResetIsSound : Prop := Sound State.reset ∧ TrainBounded State.reset

/-- Every command keeps a sound state sound: the lengths of the part's tables, the ranges of the clock, the
link's counts, the notices and the sheets, and the agreement of every good sheet with its check value (R28,
R161, R174, R180, R184). -/
def Obligations.SoundIsKept : Prop :=
  ∀ s t : State, Sound s → step s = .next t → Sound t

/-- Every command keeps the bound of the paper train: at most 64 entries, TRAIN_FULL exactly while it holds
64, room on it for the unit in the engine, and no hold reason in an IDLE engine (R72, R77, R98, R109). -/
def Obligations.TrainBoundIsKept : Prop :=
  ∀ s t : State, TrainBounded s → step s = .next t → TrainBounded t

/-- The model's choices: a signal and an owed held trial are answered once, at the end of the same step, by flags of
the model (log entry 10), and a selection is one step with the start or the change it begins (log entry 20). A
boundary (R71): under any hold reason the engine enters HELD and nothing else changes; under none it is IDLE and makes
a selection, which waits while a write cycle runs. A switch answer begins a magazine change (R84): the engine is
SWITCHING, the select-pending flag is clear, the actuator is driven to the other magazine and the timer starts with
the switch time of the GENERAL sheet, or 20 s when that is BAD; during a write cycle the last two wait. The end of a
step (R13, R48): with nothing owed it changes nothing; an engine that is not IDLE only loses the signal; an IDLE
engine whose queue has signalled takes a boundary. -/
def Obligations.SettleAnswersTheSignal : Prop :=
  (∀ s : State, s.engine.holds.isEmpty = false →
      boundary s = { s with engine := { s.engine with state := .held } })
  ∧ (∀ s : State, s.engine.holds.isEmpty = true → s.cycleRuns = true →
      boundary s = { s with engine := { s.engine with state := .idle, selectionWaiting := true } })
  ∧ (∀ s : State, s.engine.holds.isEmpty = true → s.cycleRuns = false →
      let s1 := { s with engine := { s.engine with state := .idle, selectionWaiting := false } }
      (∀ t, select s1 = (.none, t) → boundary s = t)
      ∧ (∀ id t, select s1 = (.grant id, t) → boundary s = beginStart id t)
      ∧ ∀ t, select s1 = (.switch, t) → boundary s = beginChange t)
  ∧ (∀ s : State, beginChange s = { s with engine :=
      let changing := { s.engine with state := .switching, selectPending := false }
      if s.cycleRuns = true then { changing with switchWaiting := true }
      else { changing with
        switchWaiting := false, actuator := s.engine.active.other
        switchTimer := some (if s.store.general.bad = true then 20 else s.store.general.value 7) } })
  ∧ (∀ s : State, s.queue.signal = false → s.orders.trialDue = false → settle s = s)
  ∧ (∀ s : State, s.orders.trialDue = false → s.engine.state ≠ .idle →
      settle s = { s with queue := { s.queue with signal := false } })
  ∧ (∀ s : State, s.orders.trialDue = false → s.engine.state = .idle → s.queue.signal = true →
      s.engine.selectionWaiting = false → (boundary s).orders.trialDue = false →
      settle s = { boundary s with queue := { (boundary s).queue with signal := false } })

/-! ### The link: frames (R156 to R161) -/

/-- The register that has run over any bytes and their check, low byte first, holds F0B8 hex, so whatever frame a
sender closes with its check is good at the receiver; and two runs of bytes that differ in one byte never
leave the same register, so a frame with one wrong byte, whatever bits of it are wrong, fails its check (R159,
R160). Escaped bytes hold no marker, and removing the escapes gives back what was escaped (R157). -/
def Obligations.FrameCheckCatchesErrors : Prop :=
  ((∀ bytes : List Byte, crc (bytes ++ checkBytes bytes) = 0xF0B8#16)
   ∧ (∀ (before after : List Byte) (b c : Byte), b ≠ c →
      crc (before ++ b :: after) ≠ crc (before ++ c :: after)))
  ∧ (∀ bytes : List Byte, marker ∉ escape bytes ∧ unescape (escape bytes) = some bytes)

/-- The body of every request of the catalogue spells the request again: no item is dropped or confused with
another, at every value its bytes allow (R158, R163, R167). -/
def Obligations.RequestBodyRoundTrip : Prop :=
  ∀ r : Request, r.wf = true →
    isRequestCode (requestCode r) = true ∧ readRequest (requestCode r) (requestBody r) = some r

/-- FRAME_RECEIVED of a well-formed request frame, addressed to the part or to broadcast, while a frame is
being gathered; its operand is the escaped run of bytes between two markers (log entry 27). The frame joins
the tail of the receive queue as R161 keeps it, or is dropped and counted when the queue holds 4; nothing else
changes (R157 to R161). -/
def Obligations.RequestFrameIsReceived : Prop :=
  ∀ (s : State) (h : Header) (r : Request) (destination : Nat),
    s.power = .on → s.link.inFrame = true → s.link.address ≤ 254 →
    destination = s.link.address ∨ destination = 255 → h.wf = true → r.wf = true →
    exec (.frameReceived (escape (requestFrame destination h.source h.tag r))) s =
      .next { s with link :=
        if s.link.queue.length < 4 then
          { s.link with queue := s.link.queue ++
              [{ broadcast := decide (destination = 255), source := h.source
                 code := requestCode r, tag := h.tag, body := requestBody r }] }
        else { s.link with overrun := min (s.link.overrun + 1) 65535 } }

/-- A frame is discarded at the first of R160's six tests that it fails, in their order: a length outside 7 to
247, a bad check, another address, a length byte that disagrees, a source outside 1 to 31, a response
code. FRAME_RECEIVED carries the bytes between two markers (log entry 27) and acts on that judgement (R157, R160):
in HUNT the marker only opens a frame, and an empty run is ignored; a run that ends in an escape is aborted as
bad-form; a discarded frame is counted bad-form, bad-check or bad-source, each count saturating at 65535, and one
for another address is not counted; an accepted frame joins the receive queue, or with 4 frames there is dropped
and counted as overrun (R161). Nothing else changes. -/
def Obligations.FrameTestsAreOrdered : Prop :=
  (∀ (address : Nat) (bytes : List Byte),
    (bytes.length < 7 ∨ 247 < bytes.length → judge address bytes = .badForm)
    ∧ (7 ≤ bytes.length → bytes.length ≤ 247 → crc bytes ≠ 0xF0B8#16 →
        judge address bytes = .badCheck)
    ∧ ∀ (d source code tag length : Byte) (rest : List Byte),
        bytes = d :: source :: code :: tag :: length :: rest →
        7 ≤ bytes.length → bytes.length ≤ 247 → crc bytes = 0xF0B8#16 →
        judge address bytes =
          if d.toNat ≠ address ∧ d.toNat ≠ 255 then .otherAddress
          else if length.toNat + 7 ≠ bytes.length then .badForm
          else if source.toNat = 0 ∨ 31 < source.toNat then .badSource
          else if 128 ≤ code.toNat then .badForm
          else .accepted { broadcast := decide (d.toNat = 255), source := source.toNat
                           code := code.toNat, tag, body := rest.take length.toNat })
  ∧ (∀ bytes : List Byte, unescape (escape bytes ++ [escapeByte]) = none)
  ∧ ∀ (line : List Byte) (s : State), s.power = .on →
    let k := s.link
    let leaves := fun (k1 : LinkController) =>
      exec (.frameReceived line) s = .next { s with link := k1 }
    let badForm := { k with badForm := min (k.badForm + 1) 65535 }
    (k.inFrame = false → leaves { k with inFrame := true })
    ∧ (k.inFrame = true → line = [] → leaves k)
    ∧ (k.inFrame = true → line ≠ [] →
      (unescape line = none → leaves badForm)
      ∧ ∀ bytes, unescape line = some bytes →
        (judge k.address bytes = .badForm → leaves badForm)
        ∧ (judge k.address bytes = .badCheck →
          leaves { k with badCheck := min (k.badCheck + 1) 65535 })
        ∧ (judge k.address bytes = .otherAddress → leaves k)
        ∧ (judge k.address bytes = .badSource →
          leaves { k with badSource := min (k.badSource + 1) 65535 })
        ∧ ∀ f, judge k.address bytes = .accepted f →
          leaves (if k.queue.length < 4 then { k with queue := k.queue ++ [f] }
            else { k with overrun := min (k.overrun + 1) 65535 }))

/-- The receiver's other events (R156, R157): a character error or an oversize run discards the frame being
gathered as bad-form and returns to HUNT, and a marker in HUNT opens a frame. RESPONSE_SENT (R162, R166): the
link is IDLE again, or RESETTING when the response answered a RESET. -/
def Obligations.LinkLineEvents : Prop :=
  (∀ s : State, s.power = .on →
     exec .linkCharacterError s = .next { s with link :=
       if s.link.inFrame = true then
         { s.link with inFrame := false, badForm := min (s.link.badForm + 1) 65535 }
       else s.link }
     ∧ exec .frameOversize s = .next { s with link :=
       if s.link.inFrame = true then
         { s.link with inFrame := false, badForm := min (s.link.badForm + 1) 65535 }
       else s.link }
     ∧ exec .markerReceivedInHunt s = .next { s with link := { s.link with inFrame := true } })
  ∧ (∀ (s : State) (response : Response) (thenReset : Bool), s.power = .on →
     s.link.phase = .sending response thenReset →
     exec .responseSent s = .next { s with link := { s.link with
       phase := if thenReset = true then .resetting else .idle } })

/-! ### The link: taking a request (R162 to R171) -/

/-- The lab station's frame, once taken, has the effect of its request row: for all 42 requests, taking the
frame at the head of the receive queue is the row's command on the state without that frame (R162, R163,
R168, log entry 9). -/
def Obligations.TakenFrameActsAsItsRow : Prop :=
  ∀ (c : Instr) (h : Header) (r : Request) (rest : List Frame) (s : State),
    c.request? = some (h, r) → r.wf = true → Calm s → s.link.setUp = true →
    s.link.lab = some h.source →
    s.link.queue = { broadcast := false, source := h.source, code := requestCode r, tag := h.tag
                     body := requestBody r } :: rest →
    exec .requestTaken s = exec c { s with link := { s.link with queue := rest } }

/-- The Link Controller's own tests of a frame addressed to the part, in R163's order: before the link is set up
every code but LINK_SETUP is answered NOT_SET_UP; a code outside the catalogue is answered UNKNOWN_REQUEST; a
body whose length does not fit its items BAD_VALUE. Each answer has an empty body and leaves everything else alone.
The model's choice (log entry 8): a flag or presence byte above 1, or a selector kind above 2, leaves the length
open, and a body that then fits is no matter of test 3: it goes to the rights test, and its owning block answers the
lab station BAD_VALUE. A broadcast is taken and discarded with no action and no response unless it is a SET_CLOCK of
a set-up link whose body fits; one that the station's rights admit sets the clock and makes the late check, and one
whose time is out of range changes nothing (R164). -/
def Obligations.TakenFrameIsTested : Prop :=
  (∀ (f : Frame) (rest : List Frame) (s : State), Calm s → s.link.queue = f :: rest →
     f.broadcast = false →
     let response := fun (status : Status) =>
       { s with link := { s.link with
         queue := rest
         phase := .sending { destination := f.source, source := s.link.address, code := f.code + 0x80
                             tag := f.tag, status, body := [] } false } }
     (s.link.setUp = false → f.code ≠ 0x20 → exec .requestTaken s = .next (response .notSetUp))
     ∧ (s.link.setUp = true ∨ f.code = 0x20 → f.code = 0 ∨ 0x2A < f.code →
         exec .requestTaken s = .next (response .unknownRequest))
     ∧ (s.link.setUp = true ∨ f.code = 0x20 → 1 ≤ f.code → f.code ≤ 0x2A →
         readRequest f.code f.body = none → exec .requestTaken s = .next (response .badValue))
     ∧ ((s.link.setUp = true ∧ s.link.lab = some f.source) ∨ (s.link.setUp = false ∧ f.code = 0x20) →
         readRequest f.code f.body = some (.unspelled f.code f.body) →
         exec .requestTaken s = .next (response .badValue)))
  ∧ (∀ (f : Frame) (rest : List Frame) (s : State), Calm s → s.link.queue = f :: rest →
     f.broadcast = true →
     let taken := { s with link := { s.link with queue := rest } }
     (s.link.setUp = false ∨ f.code ≠ 0x0A ∨ readRequest f.code f.body = none →
       exec .requestTaken s = .next taken)
     ∧ ∀ minute second : Nat, s.link.setUp = true → f.code = 0x0A →
       readRequest f.code f.body = some (.setClock minute second) →
       (let w := rightsOf (s.store.stations.entry (f.source - 1))
        s.link.lab = some f.source
          ∨ (s.cycleRuns = false ∧ s.store.stations.bad = false ∧ w.enabled = true ∧ w.control = true)) →
       (10079 < minute ∨ 59 < second → exec .requestTaken s = .next taken)
       ∧ (minute ≤ 10079 → second ≤ 59 → exec .requestTaken s = .next (settle
           (lateCheck { taken with clock := { s.clock with minute, second, isSet := true } }))))

/-- The rights of an enabled station that is not the lab station, by right class (R168, R180): what its order
access (0 NONE, 1 OWN, 2 READ_ANY, 3 ANY), settings access (0 NONE, 1 READ, 2 READ_WRITE), control and money
fields allow; a LAB_ONLY request never, and a write of the STATIONS sheet never. A station of OWN access
passes the owner test on its own order only: on an order of another owner it is denied, cause NOT_OWNER, and
an order held by no live slot or found DAMAGED passes, for its block to answer (R169). -/
def Obligations.StationRights : Prop :=
  (∀ (w : Rights) (r : Request), w.allows r = true ↔
     match rightClass r with
     | .generalRead => True
     | .orderFind | .orderRead => w.order ≠ 0
     | .orderCreate | .orderWrite => w.order = 1 ∨ w.order = 3
     | .money => w.money = true
     | .control => w.control = true
     | .settingsRead => w.settings ≠ 0
     | .settingsWrite => w.settings = 2 ∧ ∀ start values, r ≠ .storeWrite 3 start values
     | .labOnly => False)
  ∧ (∀ (r : Request) (n source : Nat) (s : State), CleanStorage s → s.cycleRuns = false →
     s.link.setUp = true → s.link.lab ≠ some source → s.store.stations.bad = false →
     namedNumber r = some n → rightClass r = .orderRead ∨ rightClass r = .orderWrite →
     let w := rightsOf (s.store.stations.entry (source - 1))
     w.enabled = true → w.order = 1 →
     (s.findOrder n = none → rightsTest source r s = (.pass none, s))
     ∧ ∀ i o, s.findOrder n = some i → s.order? i = some o →
       rightsTest source r s =
         (if o.state ≠ .damaged ∧ o.owner ≠ source then .deny .notOwner else .pass none, s))

/-- A request of a station whose entry does not allow it is answered DENIED, and the violation is recorded or,
with a record held, counted; PROTECTION is raised with the station as detail. Nothing else changes (R168,
R171). The entry's tests are made in R168's order, after R170's: a BAD STATIONS sheet, not enabled, lab
only, no right; and last, for a station of OWN access, the owner of the live order it names to read or write: another
station's is cause NOT_OWNER (R169). A broadcast SET_CLOCK refused so is recorded as a broadcast and gets no response
(R164). The number and the sheet are recorded as the request carried them, also outside R171's ranges (log entry
24). -/
def Obligations.DeniedRequestIsRecorded : Prop :=
  ∀ (f : Frame) (rest : List Frame) (r : Request) (s : State), Calm s → s.cycleRuns = false →
    s.link.queue = f :: rest → (f.broadcast = true → f.code = 0x0A) → s.link.setUp = true →
    s.link.lab ≠ some f.source → isRequestCode f.code = true →
    readRequest f.code f.body = some r →
    let w := rightsOf (s.store.stations.entry (f.source - 1))
    ∀ cause : DenyCause,
      (if s.store.stations.bad = true then cause = .sheetBad
       else if w.enabled = false then cause = .notEnabled
       else if rightClass r = .labOnly then cause = .labOnly
       else if w.allows r = false then cause = .noRight
       else cause = .notOwner ∧ CleanStorage s ∧ w.order = 1
         ∧ (rightClass r = .orderRead ∨ rightClass r = .orderWrite)
         ∧ ∃ n i o, namedNumber r = some n ∧ Names s n i o ∧ o.owner ≠ f.source) →
      exec .requestTaken s = .next { s with
        notices := { kinds := s.notices.kinds.modify 7 fun n =>
          { n with pending := true, count := min (n.count + 1) 255, detail := some f.source } }
        link := { s.link with
          queue := rest
          phase :=
            if f.broadcast = true then .idle
            else .sending { destination := f.source, source := s.link.address
                            code := requestCode r + 0x80, tag := f.tag, status := .denied
                            body := [] } false
          violation := some (s.link.violation.getD
            { station := f.source, code := requestCode r, cause, number := namedNumber r
              sheet := namedSheet r, broadcast := f.broadcast
              time := { minute := s.clock.minute, second := s.clock.second
                        isSet := s.clock.isSet } })
          violationOverflow :=
            if s.link.violation.isSome = true then min (s.link.violationOverflow + 1) 255
            else s.link.violationOverflow } }

/-! ### The link's own requests (R165, R166, R172) -/

/-- LINK_SETUP sets the set-up flag, the address and the lab station, an absent item taken from the GENERAL sheet or
its default, and answers from the new address with both; an item out of range is refused BAD_VALUE, at once also
beside an absent one during a write cycle (log entry 15), and only an absent item waits on a cycle (R165). RESET is
answered OK at once and marks its response, so that the link goes RESETTING when it is sent (R166). READ_LINK,
READ_VIOLATION and CLEAR_VIOLATION answer as R172 lists; the first two change nothing, and the last empties the
violation record and its overflow count. -/
def Obligations.LinkRequestsAnswer : Prop :=
  (∀ (h : Header) (address lab : Option Nat) (s : State), s.accepts = true →
     let r : Request := .linkSetup address lab
     ((∃ a ∈ address, a = 0 ∨ 254 < a) ∨ (∃ l ∈ lab, l = 0 ∨ 31 < l) →
       exec (.linkSetup h address lab) s = .next (s.answered h r .badValue []))
     ∧ ((∀ a ∈ address, 1 ≤ a ∧ a ≤ 254) → (∀ l ∈ lab, 1 ≤ l ∧ l ≤ 31) →
       s.cycleRuns = false ∨ (address.isSome = true ∧ lab.isSome = true) →
       let a := address.getD (if s.store.general.bad = true then 64 else s.store.general.value 10)
       let l := lab.getD (if s.store.general.bad = true then 1 else s.store.general.value 11)
       exec (.linkSetup h address lab) s = .next
         (({ s with link := { s.link with setUp := true, address := a, lab := some l } } : State).answered
           h r .ok (item8 a ++ item8 l))))
  ∧ (∀ (h : Header) (s : State), s.accepts = true →
     let k := s.link
     let held := (match k.violation with
       | none => item8 0
       | some v => item8 1 ++ (item8 v.station ++ item8 v.code ++ item8 v.cause.code
           ++ itemOption item16 v.number ++ itemOption item8 v.sheet ++ itemFlag v.broadcast
           ++ (item16 v.time.minute ++ item8 v.time.second ++ itemFlag v.time.isSet)))
         ++ item8 k.violationOverflow
     exec (.reset h) s = .next (s.answered h .reset .ok [])
     ∧ exec (.readViolation h) s = .next (s.answered h .readViolation .ok held)
     ∧ exec (.clearViolation h) s = .next
         (({ s with link := { k with violation := none, violationOverflow := 0 } } : State).answered
           h .clearViolation .ok held)
     ∧ (s.cycleRuns = false →
         exec (.readLink h) s = .next (s.answered h .readLink .ok
           (itemFlag k.setUp ++ item8 k.address ++ itemOption item8 k.lab
             ++ item8 (if s.store.general.bad = true then 64 else s.store.general.value 10)
             ++ item8 (if s.store.general.bad = true then 1 else s.store.general.value 11)
             ++ item8 k.queue.length ++ item16 k.badForm ++ item16 k.badCheck ++ item16 k.badSource
             ++ item16 k.overrun ++ itemFlag k.violation.isSome ++ item8 k.violationOverflow))))

/-! ### Notices (R174 to R176) -/

/-- READ_NOTICES reports and changes nothing; CLEAR_NOTICE clears one kind's pending flag, count and detail,
answers them as they were, and leaves its enable, and refuses a code outside the kinds; SET_NOTICE_ENABLES sets
each kind's enable to its bit of the mask, whose bits 13 to 15 are ignored (log entry 8), and answers the
enables as they were. A detail that is an order number takes two bytes and any other one (log entry 21). The
reported notice code names
the first kind that is both pending and enabled, and the notice line is asserted exactly while there is one
(R175, R176). -/
def Obligations.NoticeRequestsAnswer : Prop :=
  (∀ (h : Header) (s : State), s.accepts = true →
     exec (.readNotices h) s = .next (s.answered h .readNotices .ok
       (item8 s.notices.code
         ++ (s.notices.kinds.zipIdx.flatMap fun (n, i) =>
             itemFlag n.pending ++ itemFlag n.enable ++ item8 n.count
               ++ itemOption (itemDetail i) n.detail)
         ++ item16 s.memory.corrections ++ item8 s.memory.threshold))
     ∧ (∀ kind n, 1 ≤ kind → s.notices.kinds[kind - 1]? = some n →
         let cleared : Notice := { n with pending := false, count := 0, detail := none }
         exec (.clearNotice h kind) s = .next
           (({ s with notices := { kinds := s.notices.kinds.set (kind - 1) cleared } } :
             State).answered h (.clearNotice kind) .ok
               (item8 n.count ++ itemOption (itemDetail (kind - 1)) n.detail)))
     ∧ (∀ kind, kind = 0 ∨ s.notices.kinds.length < kind →
         exec (.clearNotice h kind) s = .next (s.answered h (.clearNotice kind) .badValue []))
     ∧ ∀ mask : BitVec 16, ∃ kinds : List Notice,
         exec (.setNoticeEnables h mask) s = .next
           (({ s with notices := ⟨kinds⟩ } : State).answered h (.setNoticeEnables mask) .ok
             (item16 (maskOf (s.notices.kinds.map Notice.enable))))
         ∧ ∀ i : Nat, kinds[i]? = (s.notices.kinds[i]?).map fun (n : Notice) => { n with enable := mask.getLsbD i })
  ∧ (∀ n : NoticeUnit,
     (n.line = true ↔ n.code ≠ 0)
     ∧ ∀ k, n.code = k + 1 ↔
       (∃ x, n.kinds[k]? = some x ∧ x.pending = true ∧ x.enable = true)
       ∧ ∀ j < k, ∀ x, n.kinds[j]? = some x → x.pending = false ∨ x.enable = false)

/-! ### The settings store (R180 to R184) -/

/-- STORE_READ (R181): a sheet, start entry or count out of range is refused BAD_VALUE; a running write cycle
answers STORE_BUSY; otherwise the entries from the start entry onward are answered, wrapping within its page,
with the sheet's good or BAD state, its page flags as four flag bytes (log entry 21) and its write count. It
changes nothing. STORE_WRITE is refused by the same tests, BAD_VALUE before STORE_BUSY (log entry 26), and then
changes no sheet (R170, R182). -/
def Obligations.StoreReadsAndRefusals : Prop :=
  (∀ (h : Header) (sheet start count : Nat) (s : State), s.accepts = true →
     (4 < sheet ∨ 63 < start ∨ count = 0 ∨ 16 < count →
       exec (.storeRead h sheet start count) s =
         .next (s.answered h (.storeRead sheet start count) .badValue []))
     ∧ ∀ name : SheetName, sheet = name.code → start ≤ 63 → 1 ≤ count → count ≤ 16 →
       (s.cycleRuns = true →
         exec (.storeRead h sheet start count) s =
           .next (s.answered h (.storeRead sheet start count) .storeBusy []))
       ∧ (s.cycleRuns = false →
         exec (.storeRead h sheet start count) s =
           .next (s.answered h (.storeRead sheet start count) .ok
             (item8 count
               ++ ((List.range count).flatMap fun k =>
                   itemWord ((s.store.sheet name).entry (16 * (start / 16) + (start % 16 + k) % 16)))
               ++ itemFlag (s.store.sheet name).bad ++ (s.store.sheet name).pages.flatMap itemFlag
               ++ item16 (s.store.sheet name).writes))))
  ∧ (∀ (h : Header) (sheet start : Nat) (values : List Word32) (s : State), s.accepts = true →
     (4 < sheet ∨ 63 < start ∨ values.length = 0 ∨ 16 < values.length →
       exec (.storeWrite h sheet start values) s =
         .next (s.answered h (.storeWrite sheet start values) .badValue []))
     ∧ (sheet ≤ 4 → start ≤ 63 → 1 ≤ values.length → values.length ≤ 16 → s.cycleRuns = true →
       exec (.storeWrite h sheet start values) s =
         .next (s.answered h (.storeWrite sheet start values) .storeBusy [])))

/-- STORE_WRITE while no write cycle runs (R182, R183): each entry written takes the last value carried for
it, clamped; every other entry but the check entry keeps its value; the check agrees; the write count rises
with wrap, the page is marked written and a write cycle begins. The status says whether a clamp acted, by
clampEntry (log entry 26), and the response lists one stored entry for each value carried (log entry 21). No
other sheet and nothing else of the part changes. The entries it goes to are the page's from the start entry
on, wrapping within the page; on the last page entry 63 is passed over, and a start entry of 63 begins at 48. -/
def Obligations.StoreWriteStoresOnePage : Prop :=
  (∀ (h : Header) (name : SheetName) (start : Nat) (values : List Word32) (s : State),
     s.accepts = true → s.cycleRuns = false → start ≤ 63 → 1 ≤ values.length → values.length ≤ 16 →
     (s.store.sheet name).Wf →
     let r : Request := .storeWrite name.code start values
     let old := s.store.sheet name
     let goes := writtenEntries (firstWritable start) values.length
     ∃ (clamped : Bool) (sheet : Sheet),
       exec (.storeWrite h name.code start values) s = .next
         (({ s with store := { s.store.setSheet name sheet with
             cycle := some { sheet := name, page := start / 16, before := old.entries } } } :
             State).answered h r (if clamped = true then .okClamped else .ok)
           (item8 goes.length ++ (goes.flatMap fun i => itemWord (sheet.entry i))
             ++ item16 sheet.writes))
       ∧ sheet.bad = old.bad ∧ sheet.writes = (old.writes + 1) % 65536
       ∧ sheet.pages = old.pages.set (start / 16) true
       ∧ sheet.entries.length = 64 ∧ checkAgrees sheet.entries = true
       ∧ (∀ i < 63, i ∉ goes → sheet.entry i = old.entry i)
       ∧ (∀ (k i : Nat) (w : Word32), goes[k]? = some i → values[k]? = some w →
           (∀ j : Nat, k < j → goes[j]? ≠ some i) →
           sheet.entry i = (clampEntry name i w).1)
       ∧ (clamped = true ↔
           ∃ (k i : Nat) (w : Word32), goes[k]? = some i ∧ values[k]? = some w ∧ (clampEntry name i w).2 = true))
  ∧ (∀ start count k : Nat, start ≤ 63 → k < count →
     (writtenEntries (firstWritable start) count).length = count
     ∧ (writtenEntries (firstWritable start) count)[k]? = some
         (if start < 48 then 16 * (start / 16) + (start % 16 + k) % 16
          else 48 + ((if start = 63 then 0 else start - 48) + k) % 15))

/-- What a field stores of a written value, with whether a clamp acted, and that writing the stored value again stores
it as it is (R182, log entry 26). In the range of R180's map and the chapters a value is stored unchanged with no
clamp; one below becomes the lower end and one above the upper end. A print length is 0 or 1000..12000, and 1..999
becomes 1000; a roll width between two listed ones becomes the lower of them. PRICE keeps the prices of the low
halves and clamps the thresholds Q1 and Q2 of the high halves to 400, and a U2's high half is stored as 0 with no
clamp. A lab balance is signed. A STATIONS entry's settings access above its last code becomes the last, its other
fields are stored as written, and its unused bits as 0 with no clamp. A spare entry stores any word. -/
def Obligations.StoredValuesLieInRange : Prop :=
  let number := fun (low high : Nat) (w : Word32) =>
    if w.toNat < low then (BitVec.ofNat 32 low, true)
    else if high < w.toNat then (BitVec.ofNat 32 high, true)
    else (w, false)
  (∀ (name : SheetName) (i : Nat) (w : Word32), i < 63 →
    clampEntry name i (clampEntry name i w).1 = ((clampEntry name i w).1, false))
  ∧ (∀ (c : Nat) (w : Word32), c < 16 →
      clampEntry .size (3 * c) w = (if w = 0 then (w, false) else number 1000 12000 w)
      ∧ clampEntry .size (3 * c + 1) w = number 0 400 w
      ∧ (w.toNat < 89 → clampEntry .size (3 * c + 2) w = (89, true))
      ∧ (∀ (listed next : Nat), (listed, next) ∈
          [(89, 102), (102, 127), (127, 152), (152, 203), (203, 254), (254, 305), (305, 2 ^ 32)] →
        listed ≤ w.toNat → w.toNat < next →
        clampEntry .size (3 * c + 2) w = (BitVec.ofNat 32 listed, decide (w.toNat ≠ listed))))
  ∧ (∀ (c k : Nat) (w : Word32), c < 16 → k < 3 →
      let stored := clampEntry .price (3 * c + k) w
      stored.1.toNat % 65536 = w.toNat % 65536
      ∧ (k < 2 → stored.1.toNat / 65536 = min (w.toNat / 65536) 400
          ∧ stored.2 = decide (400 < w.toNat / 65536))
      ∧ (k = 2 → stored.1.toNat / 65536 = 0 ∧ stored.2 = false))
  ∧ (∀ (i low high : Nat) (w : Word32),
      (i, low, high) ∈ [(48, 0, 999), (49, 0, 999), (50, 0, 999), (51, 0, 999), (52, 0, 100), (53, 0, 100),
        (54, 0, 99999)] →
      clampEntry .price i w = number low high w)
  ∧ (∀ (i : Nat) (w : Word32), i < 12 →
      clampEntry .calibration i w = number 200 8000 w
      ∧ clampEntry .calibration (16 + i) w =
          (if w.toInt < -40 then (BitVec.ofInt 32 (-40), true)
           else if 40 < w.toInt then (40, true)
           else (w, false))
      ∧ clampEntry .calibration (32 + i) w = number 0 400 w)
  ∧ (∀ (u : Nat) (w : Word32), u < 4 →
      clampEntry .calibration (44 + u) w = number 0 4000 w
      ∧ clampEntry .calibration (48 + u) w = number 0 1 w)
  ∧ (∀ (i low high : Nat) (w : Word32),
      (i, low, high) ∈ [(52, 1024, 2047), (53, 1, 255), (54, 1, 20), (55, 10, 200), (56, 0, 10)] →
      clampEntry .calibration i w = number low high w)
  ∧ (∀ (k : Nat) (w : Word32), k < 31 →
      let stored := clampEntry .stations k w
      stored.1.toNat < 128 ∧ stored.1 &&& 0x67#32 = w &&& 0x67#32
      ∧ (stored.1.extractLsb' 3 2).toNat = min (w.extractLsb' 3 2).toNat 2
      ∧ stored.2 = decide (2 < (w.extractLsb' 3 2).toNat))
  ∧ (∀ (i low high : Nat) (w : Word32),
      (i, low, high) ∈ [(0, 0, 255), (1, 1, 16), (2, 4, 255), (3, 20000, 200000), (4, 10, 99),
        (5, 1, 32), (6, 1, 60), (7, 5, 60), (8, 200, 5000), (9, 1, 255), (10, 1, 254), (11, 1, 31)] →
      clampEntry .general i w = number low high w)
  ∧ (∀ (name : SheetName) (i : Nat) (w : Word32), i < 63 →
      (match name with
        | .size => 48 ≤ i
        | .price => 55 ≤ i
        | .calibration => (12 ≤ i ∧ i ≤ 15) ∨ (28 ≤ i ∧ i ≤ 31) ∨ 57 ≤ i
        | .stations => 31 ≤ i
        | .general => 12 ≤ i) →
      clampEntry name i w = (w, false))

/-! ### Damaged records (R177 to R179) -/

/-- An access to a live slot with one word of one wrong bit corrects it: nothing of the order changes, the correction
count rises by one, and CORRECTIONS is raised with the slot when the count reaches a multiple of the threshold; a
count held at 65535 does neither (R177). With one word of two wrong bits the slot becomes DAMAGED: RECORD_DAMAGED is
raised with the slot, and the number is kept unless its own word is the wrong one and then reads 0; the order's other
fields stay (R25, R178). With any words wrong, one of two wrong bits makes the slot DAMAGED; a number word of at most
one wrong bit keeps the number, and a state word of at most one keeps the slot live, its state as it was or DAMAGED; a
number word of two makes the number 0. What a word of three or more spells is free (log entry 5). The wrong bits of
several upsets of one word add up (log entry 31). An access leaves nothing for a next one to find: a second access at
once changes nothing. -/
def Obligations.WrongBitsAreCorrectedOrDamage : Prop :=
  (∀ (i : Nat) (o : Order) (word : RecordWord) (s : State), s.order? i = some o → o.state ≠ .damaged →
     (∀ u ∈ s.memory.upsets, u.slot = i ∧ u.word = word) → (s.memory.upsets.map Upset.bits).sum = 1 →
     let n := s.memory.corrections + 1
     let s1 := { s with memory := { s.memory with
       upsets := [], corrections := if n ≤ 65535 then n else s.memory.corrections } }
     readSlot i s =
       if n ≤ 65535 ∧ n % s.memory.threshold = 0 then s1.raise .corrections i else s1)
  ∧ (∀ (i : Nat) (o : Order) (word : RecordWord) (s : State), s.order? i = some o → o.state ≠ .damaged →
     (∀ u ∈ s.memory.upsets, u.slot = i ∧ u.word = word) → (s.memory.upsets.map Upset.bits).sum = 2 →
     i ∉ s.orders.heldList →
     readSlot i s =
       ({ s with
           memory := { s.memory with upsets := [] }
           orders := { s.orders with slots := s.orders.slots.set i (some
             { o with state := .damaged, number := if word = .number then 0 else o.number }) } } :
         State).raise .recordDamaged i)
  ∧ (∀ (i : Nat) (o : Order) (s : State), s.order? i = some o → o.state ≠ .damaged →
     let wrong := fun (word : RecordWord) => ((s.memory.upsets.filter fun u =>
       u.slot == i && u.word == word).map Upset.bits).sum
     let t := readSlot i s
     (wrong .state ≤ 1 → (t.order? i).isSome = true)
     ∧ ((∃ word, wrong word = 2) → ∃ o1, t.order? i = some o1 ∧ o1.state = .damaged)
     ∧ ∀ o1, t.order? i = some o1 →
       (wrong .state ≤ 1 → o1.state = o.state ∨ o1.state = .damaged)
       ∧ (wrong .number ≤ 1 → o1.number = o.number) ∧ (wrong .number = 2 → o1.number = 0))
  ∧ ∀ (i : Nat) (s : State), readSlot i (readSlot i s) = readSlot i s

/-- RELEASE_DAMAGED of a DAMAGED slot (R179): its queued units leave the queue and their records the pool, its
figures entry goes, every bin that names the slot is handed to the Sorter as DISCARD, and the slot is freed.
When a queued unit went, a held trial is owed, and the return of its record signals the queue (R48); with none,
neither. The order number, the first such bin and the number of units removed are answered. The engine, the train
and every other slot stay. A slot above 63 is refused BAD_VALUE and, on clean storage (log entry 33), one that is not
DAMAGED WRONG_STATE, with no change. -/
def Obligations.ReleaseDamagedFreesTheSlot : Prop :=
  (∀ (h : Header) (slot : Nat) (s : State), Calm s →
    let refused := fun (status : Status) =>
      exec (.releaseDamaged h slot) s = .next (s.answered h (.releaseDamaged slot) status [])
    (63 < slot → refused .badValue)
    ∧ (slot ≤ 63 → CleanStorage s → (∀ o, s.order? slot = some o → o.state ≠ .damaged) → refused .wrongState))
  ∧ ∀ (h : Header) (slot : Nat) (o : Order) (s : State), Calm s → slot ≤ 63 →
    s.order? slot = some o → o.state = .damaged → s.sorter.bins.length = 24 →
    let gone := s.queue.ids.filter fun id => (s.unit? id).any fun u => u.slot == some slot
    let names := fun (b : Bin) => b.slot = some slot ∧ (b.state = .filling ∨ b.state = .ready)
    ∃ t : State,
      exec (.releaseDamaged h slot) s = .next (settle (t.answered h (.releaseDamaged slot) .ok
        (item16 o.number
          ++ itemOption item8 (binNumbers.find? fun n => decide (names (s.bin n)))
          ++ item16 gone.length)))
      ∧ t.orders = { s.orders with
          slots := s.orders.slots.set slot none, trialDue := decide (gone ≠ []) }
      ∧ t.queue = { s.queue with
          strip := s.queue.strip.filter fun id => !gone.contains id
          rush := s.queue.rush.filter fun id => !gone.contains id
          standard := s.queue.standard.filter fun id => !gone.contains id
          figures := s.queue.figures.set slot none
          pool := t.queue.pool, signal := decide (gone ≠ []) }
      ∧ (∀ id, t.unit? id = if id ∈ gone then none else s.unit? id)
      ∧ (∀ n, 1 ≤ n → n ≤ 24 → t.bin n =
          if names (s.bin n) then
            { s.bin n with state := .discard, number := none, slot := none, opened := false }
          else s.bin n)
      ∧ t = { s with
          orders := t.orders, queue := t.queue, sorter := { s.sorter with bins := t.sorter.bins }
          memory := { s.memory with upsets := s.memory.upsets.filter fun u => u.slot != slot } }

/-! ### Order records (R4 to R14, R20 to R24, R26, R27) -/

/-- The number sought for a new order is the first, counting up from the counter with wrap from 9999 to 1,
that no live slot holds, and at most 64 steps away (R4). -/
def Obligations.NewNumberIsTheFirstFree : Prop :=
  ∀ (s : State) (start : Nat), 1 ≤ start → start ≤ 9999 → s.orders.slots.length = 64 →
    ∃ steps ≤ 64,
      freeNumber s 64 start = (start - 1 + steps) % 9999 + 1
      ∧ s.findOrder ((start - 1 + steps) % 9999 + 1) = none
      ∧ ∀ k < steps, (s.findOrder ((start - 1 + k) % 9999 + 1)).isSome = true

/-- OPEN_ORDER with a class, promise and tag in range takes the lowest FREE slot: it becomes live in DRAFT with
the initial values of R1, owned by the frame's source; the number of R4 and the slot are answered, and the
counter moves past the number. It is refused BAD_VALUE for a class, promise or tag out of range, and FULL with
no FREE slot, with nothing changed (R4, R6). -/
def Obligations.OpenOrderTakesTheLowestFreeSlot : Prop :=
  (∀ (h : Header) (cls : Nat) (c : OrderClass) (promise : Option Nat) (tag : Option (List Byte))
     (i : Nat) (s : State),
     Calm s → CleanStorage s → OrderClass.ofCode cls = some c → (∀ p ∈ promise, p ≤ 10079) →
     (∀ t ∈ tag, 1 ≤ t.length ∧ t.length ≤ 12 ∧ ∀ ch ∈ t, 0x20 ≤ ch.toNat ∧ ch.toNat ≤ 0x7E) →
     i < 64 → s.order? i = none → (∀ j < i, (s.order? j).isSome = true) →
     let number := freeNumber s 64 s.orders.nextNumber
     let o : Order :=
       { number, owner := h.source, tag, cls := c, queueClass := c, promised := promise
         state := .draft, lines := [], requested := 0, delivered := 0, outstanding := 0, spoils := 0
         trayCount := 0, bin := none, late := false, spill := false, disturbed := false
         clamped := false, price := none, paid := false, collected := false, idle := 0
         voids := none }
     exec (.openOrder h cls promise tag) s = .next (({ s with
         orders := { s.orders with slots := s.orders.slots.set i (some o)
                                   nextNumber := if 9999 ≤ number then 1 else number + 1 }
         queue := { s.queue with figures := s.queue.figures.set i none } } : State).answered
       h (.openOrder cls promise tag) .ok (item16 number ++ item8 i)))
  ∧ (∀ (h : Header) (cls : Nat) (promise : Option Nat) (tag : Option (List Byte)) (s : State),
     Calm s → CleanStorage s →
     let r : Request := .openOrder cls promise tag
     let bad := 1 < cls ∨ (∃ p ∈ promise, 10079 < p)
       ∨ ∃ t ∈ tag, t.length = 0 ∨ 12 < t.length ∨ ∃ ch ∈ t, ch.toNat < 0x20 ∨ 0x7E < ch.toNat
     (bad → exec (.openOrder h cls promise tag) s = .next (s.answered h r .badValue []))
     ∧ (¬bad → (∀ i < 64, (s.order? i).isSome = true) →
       exec (.openOrder h cls promise tag) s = .next (s.answered h r .full [])))

/-- The result of a line edit that passes R7's tests on a DRAFT, with no write cycle running. ADD_LINE appends
the line with its corrections clamped to −12..+12 and its CLAMPED flag clear; CHANGE_LINE replaces the line at
its position whole; DROP_LINE removes it. R follows the lines, the idle seconds are 0, and an edit with a
correction out of range answers OK_CLAMPED (R8 to R11). The refusals, in R7's order, which change nothing but a
DRAFT's idle seconds: WRONG_STATE out of DRAFT; SHEET_BAD for ADD_LINE and CHANGE_LINE while the SIZE sheet is BAD;
BAD_VALUE for a field out of range, a size not in use or a position that holds no line; TOO_MANY past 12 lines or 400
prints. -/
def Obligations.LineEditsKeepTheSum : Prop :=
  (∀ (h : Header) (n i : Nat) (o : Order) (s : State),
    Calm s → CleanStorage s → Names s n i o → o.state = .draft →
    o.requested = totalQuantity o.lines →
    let edited := fun (o1 : Order) (r : Request) (status : Status) (body : List Byte) =>
      ({ s with orders := { s.orders with slots := s.orders.slots.set i (some o1) } } :
        State).answered h r status body
    (∀ (item : LineItem) (b : Border), s.cycleRuns = false → s.store.size.bad = false →
      1 ≤ item.quantity → item.quantity ≤ 99 → item.size ≤ 15 →
      s.store.size.value (3 * item.size) ≠ 0 → item.surface ≤ 3 → Border.ofCode item.border = some b →
      let line : Line :=
        { size := item.size, surface := item.surface, quantity := item.quantity, border := b
          d := max (-12) (min 12 item.d), c := max (-12) (min 12 item.c)
          m := max (-12) (min 12 item.m), y := max (-12) (min 12 item.y)
          handle := item.handle, clamped := false }
      let status : Status :=
        if ∀ x ∈ [item.d, item.c, item.m, item.y], -12 ≤ x ∧ x ≤ 12 then .ok else .okClamped
      (o.lines.length < 12 → totalQuantity (o.lines ++ [line]) ≤ 400 →
        let lines := o.lines ++ [line]
        exec (.addLine h n item) s = .next (edited
          { o with lines, requested := totalQuantity lines, idle := 0 } (.addLine n item) status
          (item8 lines.length ++ item16 (totalQuantity lines))))
      ∧ ∀ position, 1 ≤ position → position ≤ o.lines.length →
        let lines := o.lines.set (position - 1) line
        totalQuantity lines ≤ 400 →
        exec (.changeLine h n position item) s = .next (edited
          { o with lines, requested := totalQuantity lines, idle := 0
                   clamped := o.clamped && lines.any Line.clamped }
          (.changeLine n position item) status (item16 (totalQuantity lines))))
    ∧ ∀ position, 1 ≤ position → position ≤ o.lines.length →
      let lines := o.lines.eraseIdx (position - 1)
      exec (.dropLine h n position) s = .next (edited
        { o with lines, requested := totalQuantity lines, idle := 0 } (.dropLine n position) .ok
        (item8 lines.length ++ item16 (totalQuantity lines))))
  ∧ ∀ (h : Header) (n i : Nat) (o : Order) (s : State), Calm s → CleanStorage s → Names s n i o →
    let touched := if o.state = .draft then { o with idle := 0 } else o
    let refused := fun (c : Instr) (r : Request) (status : Status) =>
      exec c s = .next (({ s with orders := { s.orders with
        slots := s.orders.slots.set i (some touched) } } : State).answered h r status [])
    (s.cycleRuns = false → ∀ (item : LineItem) (position : Nat),
      let adding := refused (.addLine h n item) (.addLine n item)
      let changing := refused (.changeLine h n position item) (.changeLine n position item)
      let bad := item.quantity = 0 ∨ 99 < item.quantity ∨ 15 < item.size
        ∨ s.store.size.value (3 * item.size) = 0 ∨ 3 < item.surface ∨ 1 < item.border
      let outside := position = 0 ∨ o.lines.length < position
      (o.state ≠ .draft → adding .wrongState ∧ changing .wrongState)
      ∧ (o.state = .draft →
        (s.store.size.bad = true → adding .sheetBad ∧ changing .sheetBad)
        ∧ (s.store.size.bad = false →
          (bad → adding .badValue) ∧ (outside ∨ bad → changing .badValue)
          ∧ (¬bad → 12 ≤ o.lines.length ∨ 400 < o.requested + item.quantity → adding .tooMany)
          ∧ (¬bad → ¬outside →
            400 < totalQuantity (o.lines.eraseIdx (position - 1)) + item.quantity →
            changing .tooMany))))
    ∧ ∀ position : Nat,
      let dropping := refused (.dropLine h n position) (.dropLine n position)
      (o.state ≠ .draft → dropping .wrongState)
      ∧ (o.state = .draft → position = 0 ∨ o.lines.length < position → dropping .badValue)

/-- Every request that names an order number is answered NO_ORDER when no live slot holds it, and DAMAGED when
its slot is DAMAGED, with READ_ORDER giving the slot and number; either way nothing changes (R5, R7, R25,
R26). A request whose sheet read comes before the answer waits instead while a write cycle runs. -/
def Obligations.NumberTestsComeFirst : Prop :=
  ∀ (c : Instr) (h : Header) (r : Request) (n : Nat) (s : State),
    Calm s → c.request? = some (h, r) → namedNumber r = some n → s.cycleRuns = false →
    (∀ start number, r = .readQueue start number → 1 ≤ start ∧ start ≤ 512) →
    (s.findOrder n = none → exec c s = .next (s.answered h r .noOrder []))
    ∧ ∀ i o, s.findOrder n = some i → s.order? i = some o → o.state = .damaged →
      exec c s = .next (s.answered h r .damaged
        (if r = .readOrder n then item8 i ++ item16 o.number else []))

/-- SUBMIT of a DRAFT whose lines' sizes are all in use (R12): with orders held already or no room, it joins
the held list's tail and enters HELD; with the list empty and room for its R units, it is admitted and enters
QUEUED. The state entered is answered, and the recorded held cause stays as it was (log entry 17). WITHDRAW of
a HELD order (R14): it leaves the held list and returns to DRAFT with its idle seconds at 0 and everything
else as it was; when it was the head, the new head's trial is owed. The refusals change nothing but a DRAFT's idle
seconds (R11): SUBMIT out of DRAFT or with no lines WRONG_STATE, with the SIZE sheet BAD SHEET_BAD, with a size no
longer in use BAD_VALUE and the position of the first such line; WITHDRAW out of HELD WRONG_STATE. -/
def Obligations.SubmitAndWithdraw : Prop :=
  (∀ (h : Header) (n i : Nat) (o : Order) (s : State),
     Calm s → CleanStorage s → Names s n i o → o.state = .draft → o.lines ≠ [] →
     s.cycleRuns = false → s.store.size.bad = false →
     (∀ l ∈ o.lines, s.store.size.value (3 * l.size) ≠ 0) →
     let fits := s.queueCount + o.requested ≤ 440
     (s.orders.heldList ≠ [] ∨ ¬fits →
       exec (.submit h n) s = .next (({ s with orders := { s.orders with
           slots := s.orders.slots.set i (some { o with state := .held, idle := 0 })
           heldList := s.orders.heldList ++ [i] } } : State).answered h (.submit n) .ok (item8 1)))
     ∧ (s.orders.heldList = [] → fits →
       exec (.submit h n) s = .next
         (settle ((admitOrder i { o with idle := 0 } s).answered h (.submit n) .ok (item8 2)))))
  ∧ (∀ (h : Header) (n i : Nat) (o : Order) (s : State),
     Calm s → CleanStorage s → Names s n i o → o.state = .held → i ∈ s.orders.heldList →
     let rest := s.orders.heldList.erase i
     exec (.withdraw h n) s = .next (settle (({ s with
         orders := { s.orders with
           slots := s.orders.slots.set i (some { o with state := .draft, idle := 0 })
           heldList := rest, trialDue := decide (s.orders.heldList.head? = some i) }
         queue := { s.queue with
           heldCause := if rest = [] then none else s.queue.heldCause } } :
       State).answered h (.withdraw n) .ok [])))
  ∧ ∀ (h : Header) (n i : Nat) (o : Order) (s : State), Calm s → CleanStorage s → Names s n i o →
    let touched := if o.state = .draft then { o with idle := 0 } else o
    let refused := fun (c : Instr) (r : Request) (status : Status) (body : List Byte) =>
      exec c s = .next (({ s with orders := { s.orders with
        slots := s.orders.slots.set i (some touched) } } : State).answered h r status body)
    let submitted := refused (.submit h n) (.submit n)
    (s.cycleRuns = false →
      (o.state ≠ .draft ∨ o.lines = [] → submitted .wrongState [])
      ∧ (o.state = .draft → o.lines ≠ [] → s.store.size.bad = true → submitted .sheetBad [])
      ∧ (o.state = .draft → s.store.size.bad = false →
        ∀ before l after, o.lines = before ++ l :: after →
          (∀ x ∈ before, s.store.size.value (3 * x.size) ≠ 0) →
          s.store.size.value (3 * l.size) = 0 →
          submitted .badValue (item8 (before.length + 1))))
    ∧ (o.state ≠ .held → refused (.withdraw h n) (.withdraw n) .wrongState [])

/-- Admission (R36), with as many FREE unit records as the order's prints: one PRINT unit for each print joins
the tail of its class's section in line and copy order, each with its line's surface and the figures read now: P,
border lines (0 for a line without border) and roll width of its size from the SIZE sheet, G and M from the GENERAL
sheet or their defaults. The order's figures entry holds those figures for each line and no copy missing (R34). The
order enters QUEUED with O = R, the queue has signalled the engine (R48), and nothing else changes. -/
def Obligations.AdmissionMakesEveryUnit : Prop :=
  ∀ (i : Nat) (o : Order) (s : State), i < s.orders.slots.length → i < s.queue.figures.length →
    totalQuantity o.lines ≤ s.queue.pool.countP Option.isNone →
    let t := admitOrder i o s
    let figure := fun (l : Line) =>
      ({ lead := if s.store.general.bad = true then 40 else s.store.general.value 0
         print := s.store.size.value (3 * l.size)
         border := if l.border = .white then s.store.size.value (3 * l.size + 1) else 0
         mark := if s.store.general.bad = true then 8 else s.store.general.value 1
         width := s.store.size.value (3 * l.size + 2) } : LineFigure)
    ∃ ids : List Nat,
      ids.length = totalQuantity o.lines ∧ ids.Nodup
      ∧ (∀ id ∈ ids, s.unit? id = none) ∧ (∀ id, id ∉ ids → t.unit? id = s.unit? id)
      ∧ ids.map t.unit? =
          ((o.lines.zipIdx 1).flatMap fun (l, p) => (List.range l.quantity).map fun k => some
            { kind := .print, slot := some i, number := some o.number, position := some p
              copy := some (k + 1), lineage := 0, surface := l.surface, width := some (figure l).width
              lead := (figure l).lead, print := (figure l).print, border := (figure l).border
              mark := (figure l).mark, place := .queue, spoiled := false, void := false
              exposure := none })
      ∧ t.queueCount = s.queueCount + totalQuantity o.lines
      ∧ t = { s with
        orders := { s.orders with slots := s.orders.slots.set i (some
          { o with state := .queued, outstanding := o.requested, idle := 0 }) }
        queue := { s.queue with
          pool := t.queue.pool, signal := true
          figures := s.queue.figures.set i (some { figures := o.lines.map figure, missing := [] })
          rush := if o.queueClass = .rush then s.queue.rush ++ ids else s.queue.rush
          standard :=
            if o.queueClass = .standard then s.queue.standard ++ ids else s.queue.standard } }

/-- CANCEL (R20, R21, R23). A DRAFT is freed, a HELD order leaves the held list and is freed, a COMPLETE order and a
READY one without PAID give their bin to the Sorter as DISCARD and are freed, a READY order with PAID is refused,
and a CANCELLING one is answered again with no change. Of an order whose units are admitted, the queued units leave
their sections and the pool, which signals the queue (R48) and owes a held trial, the units in the engine and on the
train are marked VOID, and the bin goes to the Sorter. With none in flight the slot is freed and its figures entry
removed (R34, R42); otherwise the entry stays and the order is CANCELLING, holds no bin, waits for that many VOID
units, and its O has fallen by the queued units and the units in flight that it counted. -/
def Obligations.CancelActsByState : Prop :=
  (∀ (h : Header) (n i : Nat) (o : Order) (s : State),
     Calm s → CleanStorage s → Names s n i o →
     let freed := { s with
       orders := { s.orders with slots := s.orders.slots.set i none }
       queue := { s.queue with figures := s.queue.figures.set i none } }
     (o.state = .draft →
       exec (.cancel h n) s = .next (freed.answered h (.cancel n) .ok (item8 0)))
     ∧ (o.state = .held → i ∈ s.orders.heldList →
       let rest := s.orders.heldList.erase i
       exec (.cancel h n) s = .next (settle (({ freed with
         orders := { freed.orders with
           heldList := rest, trialDue := decide (s.orders.heldList.head? = some i) }
         queue := { freed.queue with
           heldCause := if rest = [] then none else s.queue.heldCause } } :
         State).answered h (.cancel n) .ok (item8 0))))
     ∧ (o.state = .complete ∨ (o.state = .ready ∧ o.paid = false) →
       let handed := fun (b : Bin) =>
         { b with state := .discard, number := none, slot := none, opened := false }
       let bins := match o.bin with
         | none => s.sorter.bins
         | some b => s.sorter.bins.set (b - 1) (handed (s.bin b))
       exec (.cancel h n) s = .next (({ freed with sorter := { s.sorter with bins } } :
         State).answered h (.cancel n) .ok (item8 0)))
     ∧ (o.state = .ready → o.paid = true →
       exec (.cancel h n) s = .next (s.answered h (.cancel n) .wrongState []))
     ∧ (o.state = .cancelling →
       exec (.cancel h n) s = .next (s.answered h (.cancel n) .ok (item8 1))))
  ∧ (∀ (h : Header) (n i : Nat) (o : Order) (s : State),
     Calm s → CleanStorage s → Names s n i o →
     o.state = .queued ∨ o.state = .exposing ∨ o.state = .fault →
     (∀ id ∈ s.inFlight, id ∉ s.queue.ids) →
     let its := fun (id : Nat) => (s.unit? id).any fun u => u.isOf i o.number
     let queued := s.queue.ids.filter its
     let flight := s.inFlight.filter its
     let counted := flight.filter fun id => (s.unit? id).any fun u => !u.spoiled && !u.void
     ∃ t : State,
       exec (.cancel h n) s = .next (settle (t.answered h (.cancel n) .ok
         (item8 (if flight = [] then 0 else 1))))
       ∧ t.orders = { s.orders with
           slots := s.orders.slots.set i (if flight = [] then none else some { o with
             state := .cancelling, bin := none, voids := some flight.length
             outstanding := o.outstanding - queued.length - counted.length })
           trialDue := decide (queued ≠ []) }
       ∧ (∀ id, t.unit? id =
           if id ∈ queued then none
           else if id ∈ flight then (s.unit? id).map fun u => { u with void := true }
           else s.unit? id)
       ∧ t.queue = { s.queue with
           strip := s.queue.strip.filter fun id => !queued.contains id
           rush := s.queue.rush.filter fun id => !queued.contains id
           standard := s.queue.standard.filter fun id => !queued.contains id
           figures := if flight = [] then s.queue.figures.set i none else s.queue.figures
           pool := t.queue.pool, signal := decide (queued ≠ []) }
       ∧ (o.bin ≠ some 0 → ∀ b, 1 ≤ b → b ≤ s.sorter.bins.length → t.bin b =
           if o.bin = some b then
             { s.bin b with state := .discard, number := none, slot := none, opened := false }
           else s.bin b)
       ∧ t = { s with orders := t.orders, queue := t.queue
                      sorter := { s.sorter with bins := t.sorter.bins } })

/-- READ_ORDER answers the whole record and changes nothing but a DRAFT's idle seconds (R11, R26): the slot, the
fields of R1 in that table's order, each line with the fields of R2 and its CLAMPED flag, the idle seconds in DRAFT,
the number of lines, the place in the held list of a HELD order, counted from 1, and the void count in CANCELLING, in
the layout of log entry 21. QUOTE answers the price of the order as it stands, with the PRICE sheet good and no write
cycle running, is refused STORE_BUSY during a write cycle and SHEET_BAD with the PRICE sheet BAD, and changes no more
(R137, R138). -/
def Obligations.ReadOrderAndQuoteChangeNothing : Prop :=
  ∀ (h : Header) (n i : Nat) (o : Order) (s : State),
    Calm s → CleanStorage s → Names s n i o →
    let o1 := if o.state = .draft then { o with idle := 0 } else o
    let t := { s with orders := { s.orders with slots := s.orders.slots.set i (some o1) } }
    let line := fun (l : Line) =>
      item8 l.size ++ item8 l.surface ++ item8 l.quantity ++ item8 l.border.code ++ itemInt8 l.d ++ itemInt8 l.c
        ++ itemInt8 l.m ++ itemInt8 l.y ++ itemWord l.handle ++ itemFlag l.clamped
    let price := fun (p : PriceRecord) =>
      item32 p.subtotal ++ item32 p.rushAdd ++ item32 p.lateDiscount ++ item32 p.total ++ item16 p.writeCount
    exec (.readOrder h n) s = .next (t.answered h (.readOrder n) .ok
      (item8 i ++ item16 o.number ++ item8 o.owner
        ++ itemOption (fun tag => item8 tag.length ++ tag) o.tag ++ item8 o.cls.code ++ item8 o.queueClass.code
        ++ itemOption item16 o.promised ++ item8 o.state.code ++ itemList8 line o.lines
        ++ item16 o.requested ++ item16 o.delivered ++ item16 o.outstanding ++ item16 o.spoils
        ++ item16 o.trayCount ++ itemOption item8 o.bin
        ++ itemFlag o.late ++ itemFlag o.spill ++ itemFlag o.disturbed ++ itemFlag o.clamped
        ++ itemOption price o.price ++ itemFlag o.paid ++ itemFlag o.collected
        ++ (if o.state = .draft then item8 1 ++ item16 0 else item8 0)
        ++ item8 o.lines.length
        ++ itemOption item8 (if o.state = .held then
            (s.orders.heldList.findIdx? fun k => k == i).map fun k => k + 1 else none)
        ++ itemOption item8 (if o.state = .cancelling then o.voids else none)))
    ∧ (s.cycleRuns = true → exec (.quote h n) s = .next (t.answered h (.quote n) .storeBusy []))
    ∧ (s.cycleRuns = false → s.store.price.bad = true →
      exec (.quote h n) s = .next (t.answered h (.quote n) .sheetBad []))
    ∧ (s.cycleRuns = false → s.store.price.bad = false →
      let p := priceOf s.store.price o
      exec (.quote h n) s = .next (t.answered h (.quote n) .ok
        (item8 o.state.code ++ item8 o.lines.length ++ item16 o.requested
          ++ itemList8 (fun l => item32 (lineAmount s.store.price o.lines l)) o.lines
          ++ item32 p.subtotal ++ item32 p.rushAdd ++ item32 p.lateDiscount ++ item32 p.total
          ++ item16 s.store.price.writes ++ itemOption item32 (o.price.map PriceRecord.total))))

/-- FIND_ORDERS answers, in strictly ascending order when no two live slots hold one number (R4), the first 16
numbers above the starting number of the orders that match its selector, limited for an OWN station to the
orders it owns, a DAMAGED one not being among them (log entry 34), with whether more lie beyond, the count of
live slots and the discarded-draft count; on clean storage it changes nothing. A tag of no or more than 12 characters,
a state code above 8, a station outside 1..31 or a starting number above 9999 is refused BAD_VALUE (R27). -/
def Obligations.FindOrdersAscend : Prop :=
  ∀ (h : Header) (sel : Selector) (start : Nat) (s : State), Calm s →
    let bad := 9999 < start ∨ match sel with
      | .tag t => t.length = 0 ∨ 12 < t.length
      | .state code => 8 < code
      | .owner station => station = 0 ∨ 31 < station
    (bad → exec (.findOrders h sel start) s =
      .next (s.answered h (.findOrders sel start) .badValue []))
    ∧ (¬bad → CleanStorage s → ∃ found : List Nat,
      exec (.findOrders h sel start) s = .next (s.answered h (.findOrders sel start) .ok
        (itemList8 item16 (found.take 16) ++ itemFlag (decide (16 < found.length))
          ++ item8 (s.orders.slots.countP Option.isSome) ++ item16 s.orders.discarded))
      ∧ found.Pairwise (· ≤ ·)
      ∧ ((∀ i j a b, s.order? i = some a → s.order? j = some b → 0 < a.number → a.number = b.number →
            i = j) → found.Pairwise (· < ·))
      ∧ ∀ k, k ∈ found ↔ start < k ∧ ∃ o ∈ s.orders.slots.filterMap id, o.number = k
          ∧ (match sel with
            | .tag t => o.state ≠ .damaged ∧ o.tag = some t
            | .state code => o.state.code = code
            | .owner station => o.state ≠ .damaged ∧ o.owner = station)
          ∧ (s.link.lab ≠ some h.source → s.orderAccess h.source = 1 →
              o.state ≠ .damaged ∧ o.owner = h.source))

/-! ### The Shop Clock (R11, R28 to R30) -/

/-- SECOND_EVENT: the clock advances, every DRAFT's idle seconds rise by 1 up to 3600, and the comparison with the
draft timeout is due; nothing else changes (R11, R28). The clock counts the 604,800 seconds of a week: it moves
on by one, wrapping at the week's end, and a minute event follows exactly when the seconds returned to 0
(R28). -/
def Obligations.SecondEventAdvances : Prop :=
  (∀ s : State, Running s → CleanStorage s → s.orders.slots.length = 64 →
     exec .secondEvent s = .next { s with
       clock := s.clock.tick
       orders := { s.orders with
         slots := s.orders.slots.map (Option.map fun o =>
           if o.state = .draft then { o with idle := min (o.idle + 1) 3600 } else o)
         draftCheckDue := true } })
  ∧ (∀ c : ShopClock, c.Wf →
     60 * c.tick.minute + c.tick.second = (60 * c.minute + c.second + 1) % 604800
     ∧ c.tick.second ≤ 59 ∧ c.tick.isSet = c.isSet
     ∧ c.tick.minuteDue = (c.minuteDue || decide (c.tick.second = 0)))

/-- DRAFT_TIMEOUT: the comparison that is due, unless a write cycle delays it, frees every DRAFT whose idle
seconds have reached the timeout, each counted in the discarded-draft count; on clean storage no other order
changes. The comparison reads the DRAFTs through the check code (log entry 33). With no comparison due, or while
a write cycle runs, nothing changes (R11). -/
def Obligations.DraftTimeoutFreesIdleDrafts : Prop :=
  ∀ s : State, Running s → s.orders.slots.length = 64 →
    let timeout := 60 * (if s.store.general.bad = true then 10 else s.store.general.value 6)
    let out := fun (o : Order) => o.state == .draft && decide (timeout ≤ o.idle)
    (s.orders.draftCheckDue = false ∨ s.cycleRuns = true → exec .draftTimeout s = .next s)
    ∧ (s.orders.draftCheckDue = true → s.cycleRuns = false → CleanStorage s →
      ∃ t : State, exec .draftTimeout s = .next t
        ∧ t.orders = { s.orders with
            slots := s.orders.slots.map fun slot => slot.filter fun o => !out o
            discarded := Nat.repeat (fun d => min (d + 1) 65535)
              (s.orders.slots.countP fun slot => slot.any out) s.orders.discarded
            draftCheckDue := false }
        ∧ t = { s with orders := t.orders
                       queue := { s.queue with figures := t.queue.figures } })

/-- A late check on clean storage, made only while the clock is set: exactly the orders in HELD, QUEUED, EXPOSING
or FAULT whose promise lies less than 1440 minutes behind and that are not LATE already become LATE with queue
class RUSH. In ascending slot index ORDER_LATE is raised with each one's number, and the STANDARD units of those whose
class was STANDARD move to the tail of the RUSH section, each order's in their order, which signals the engine (R30,
R44, R48). Nothing else changes. SET_CLOCK with a time in range takes it, sets the set
flag, makes a late check against the new time and answers OK; out of range it is refused BAD_VALUE with no
change (R29). MINUTE_EVENT makes the late check of a minute that is due, and nothing otherwise (R28). -/
def Obligations.LateChecks : Prop :=
  (∀ s : State, CleanStorage s → s.orders.slots.length = 64 →
     let due := fun (o : Order) =>
       decide (o.state = .held ∨ o.state = .queued ∨ o.state = .exposing ∨ o.state = .fault)
         && !o.late && o.promised.any fun p => decide ((s.clock.minute + 10080 - p) % 10080 < 1440)
     let late := (List.range 64).filter fun i => (s.order? i).any due
     let moved := late.flatMap fun i => s.queue.standard.filter fun id =>
       (s.order? i).any fun o =>
         o.queueClass == .standard && (s.unit? id).any fun u => u.isOf i o.number
     (s.clock.isSet = false → lateCheck s = s)
     ∧ (s.clock.isSet = true → lateCheck s = { s with
         orders := { s.orders with slots := s.orders.slots.map (Option.map fun o =>
           if due o = true then { o with late := true, queueClass := .rush } else o) }
         queue := { s.queue with
           standard := s.queue.standard.filter fun id => !moved.contains id
           rush := s.queue.rush ++ moved, signal := s.queue.signal || decide (moved ≠ []) }
         notices := (late.foldl
           (fun t i => t.raise .orderLate (((s.order? i).map Order.number).getD 0)) s).notices }))
  ∧ ((∀ (h : Header) (minute second : Nat) (s : State), Calm s →
     (10079 < minute ∨ 59 < second →
       exec (.setClock h minute second) s =
         .next (s.answered h (.setClock minute second) .badValue []))
     ∧ (minute ≤ 10079 → second ≤ 59 →
       exec (.setClock h minute second) s = .next (settle
         ((lateCheck { s with clock := { s.clock with minute, second, isSet := true } }).answered
           h (.setClock minute second) .ok []))))
   ∧ (∀ s : State, Running s →
     (s.clock.minuteDue = false → exec .minuteEvent s = .next s)
     ∧ (s.clock.minuteDue = true →
       exec .minuteEvent s =
         .next (settle (lateCheck { s with clock := { s.clock with minuteDue := false } })))))


/-! ### The Exposure Queue (R13, R16, R17, R37 to R50) -/

/-- A unit is eligible on a magazine exactly when R47's tests hold: the magazine is present with no paper-end and of
the unit's surface, of its width unless it is a strip, with paper for the unit and the reserve; a print's surface is
under no strict hold; its order is not DAMAGED; at most 505 units are in use. A selection first removes the queued
units of DAMAGED orders, returns their records, removes those orders' figures entries, and owes a held trial when any
unit went (R43). It then answers by the first of R49's cases: none over 505 units in use; switch for a pending
SELECT_MAGAZINE with the other magazine present; the first strip eligible here; switch for a strip eligible there;
switch when no RUSH unit is eligible here and one is there; the first eligible RUSH or STANDARD unit with the run
count of R50; switch for any unit eligible there; none. A grant takes the unit out of the queue, its place becomes the
engine and a held trial is owed (R51); a strip leaves the run count; nothing else changes. -/
def Obligations.SelectionGrantsAnEligibleUnit : Prop :=
  (∀ (m : Magazine) (id : Nat) (s : State),
     let r := s.engine.mag m
     let reserve := if s.store.general.bad = true then 1000 else s.store.general.value 8
     s.eligible m id = true ↔ ∃ u, s.unit? id = some u
       ∧ r.present = true ∧ r.paperEnd = false ∧ r.surface = some u.surface
       ∧ (u.kind = .strip ∨ (r.width.isSome = true ∧ r.width = u.width))
       ∧ u.lead + u.print + u.mark + reserve ≤ r.remaining
       ∧ (u.kind = .strip ∨ (s.surface u.surface).due = false ∨ s.store.calibration.bad = true
           ∨ s.store.calibration.value (48 + u.surface) = 0)
       ∧ (∀ i o, u.slot = some i → s.order? i = some o → o.state ≠ .damaged)
       ∧ s.unitsInUse ≤ 505)
  ∧ (∀ s : State, CleanStorage s →
     let gone := (s.queue.rush ++ s.queue.standard).filter fun id =>
       (s.unit? id).any fun u => u.slot.any fun i => (s.order? i).any fun o => o.state == .damaged
     ∃ t : State, select s = settleSelection (runTrials t)
       ∧ (∀ id, t.unit? id = if id ∈ gone then none else s.unit? id)
       ∧ (∀ i, t.figures? i =
           if (gone.any fun id => (s.unit? id).any fun u => u.slot == some i) = true then none
           else s.figures? i)
       ∧ t = { s with
         orders := { s.orders with trialDue := s.orders.trialDue || decide (gone ≠ []) }
         queue := { s.queue with
           pool := t.queue.pool, figures := t.queue.figures
           strip := s.queue.strip.filter fun id => !gone.contains id
           rush := s.queue.rush.filter fun id => !gone.contains id
           standard := s.queue.standard.filter fun id => !gone.contains id
           signal := s.queue.signal || decide (gone ≠ []) } })
  ∧ ∀ s : State,
    let e := s.engine
    let here := fun (id : Nat) => s.eligible e.active id = true
    let there := fun (id : Nat) => s.eligible e.active.other id = true
    let first := fun (id : Nat) (l : List Nat) =>
      ∃ before after, l = before ++ id :: after ∧ here id ∧ ∀ k ∈ before, ¬here k
    let limit := if s.store.general.bad = true then 6 else s.store.general.value 5
    let granted := fun (id run : Nat) => settleSelection s = (.grant id, { s with
      orders := { s.orders with trialDue := true }
      queue := { s.queue with
        strip := s.queue.strip.filter (fun k => k != id), rush := s.queue.rush.filter (fun k => k != id)
        standard := s.queue.standard.filter (fun k => k != id), runCount := run
        pool := s.queue.pool.set id ((s.unit? id).map fun u => { u with place := .engine }) } })
    let switches := settleSelection s = (.switch, s)
    let nothing := settleSelection s = (.none, s)
    let pending := e.selectPending = true ∧ (e.mag e.active.other).present = true
    (505 < s.unitsInUse → nothing)
    ∧ (s.unitsInUse ≤ 505 → (pending → switches) ∧ (¬pending →
      (∀ id, first id s.queue.strip → granted id s.queue.runCount)
      ∧ ((∀ k ∈ s.queue.strip, ¬here k) →
        ((∃ k ∈ s.queue.strip, there k) → switches)
        ∧ ((∀ k ∈ s.queue.strip, ¬there k) →
          (∀ r, first r s.queue.rush →
            (∀ st, first st s.queue.standard →
              if limit ≤ s.queue.runCount then granted st 0
              else granted r (min (s.queue.runCount + 1) 32))
            ∧ ((∀ k ∈ s.queue.standard, ¬here k) → granted r 0))
          ∧ ((∀ k ∈ s.queue.rush, ¬here k) →
            ((∃ k ∈ s.queue.rush, there k) → switches)
            ∧ ((∀ k ∈ s.queue.rush, ¬there k) →
              (∀ st, first st s.queue.standard → granted st 0)
              ∧ ((∀ k ∈ s.queue.standard, ¬here k) →
                ((∃ k ∈ s.queue.standard, there k) → switches)
                ∧ ((∀ k ∈ s.queue.standard, ¬there k) → nothing))))))))

/-- A held trial that is owed, on clean storage with no write cycle running (R13, R37). With the held list empty
there is no held cause. Otherwise its head alone is tried: failing, by the first of R37's tests, it stays, its cause
is recorded and nothing else changes; passing, it leaves the list, the cause is cleared, it is admitted, and the new
head is tried in the same way. So the list that is left is a tail of the list that was, every order that left it is
QUEUED with O = R, no other slot changes, and an order never overtakes the head. -/
def Obligations.HeldTrialsStopAtTheHead : Prop :=
  ∀ s : State, s.orders.trialDue = true → s.cycleRuns = false → CleanStorage s →
    let t := runTrials s
    let size := s.store.size
    let tried := { s.orders with trialDue := false }
    (s.orders.heldList = [] →
      t = { s with orders := tried, queue := { s.queue with heldCause := none } })
    ∧ (∀ i rest o, s.orders.heldList = i :: rest → s.order? i = some o →
      let unused := ∃ l ∈ o.lines, size.value (3 * l.size) = 0
      let fails := fun (cause : HeldCause) =>
        t = { s with orders := tried, queue := { s.queue with heldCause := some cause } }
      (size.bad = true → fails .sizeSheet)
      ∧ (size.bad = false → unused → fails .sizeUnused)
      ∧ (size.bad = false → ¬unused → 440 < s.queueCount + o.requested → fails .room)
      ∧ (size.bad = false → ¬unused → s.queueCount + o.requested ≤ 440 →
        t = runTrials (admitOrder i o { s with
          orders := { s.orders with heldList := rest }
          queue := { s.queue with heldCause := none } })))
    ∧ ((∀ i ∈ s.orders.heldList, (s.order? i).isSome = true) →
      ∃ gone, s.orders.heldList = gone ++ t.orders.heldList
        ∧ (∀ i ∈ gone, ∀ o, s.order? i = some o →
          t.order? i = some { o with state := .queued, outstanding := o.requested, idle := 0 })
        ∧ (∀ i, i ∉ gone → t.order? i = s.order? i)
        ∧ (t.orders.heldList = [] → t.queue.heldCause = none)
        ∧ t.orders.trialDue = false)

/-- A spoil report of a unit (R38), on clean storage. A unit SPOILED already is left alone. A STRIP becomes SPOILED,
and the strip record in OUT is marked abandoned (R148); a unit that is VOID, has no order, or is of an order DAMAGED
or in any state but QUEUED, EXPOSING and FAULT becomes SPOILED, and nothing else changes. A print of an order in those
three states (R16, R38, R39), with a FREE unit record: below lineage 2 a REPRINT of lineage one greater and otherwise
the same figures joins the head of its order's section, and O stays; at lineage 2 there is no reprint: the pair joins
the missing list, O falls by 1, and the order is in FAULT with ORDER_FAULT raised. The spoil count rises and the unit
is SPOILED either way. -/
def Obligations.SpoilIsReprintedOrMissing : Prop :=
  (∀ (id : Nat) (u : PrintUnit) (s : State), CleanStorage s → s.unit? id = some u →
    let marked := { s.queue with pool := s.queue.pool.set id (some { u with spoiled := true }) }
    (u.spoiled = true → spoilReport id s = s)
    ∧ (u.spoiled = false → u.kind = .strip →
      (∀ surface abandoned, s.cal.strip = .out surface id abandoned →
        spoilReport id s = { s with
          queue := marked, cal := { s.cal with strip := .out surface id true } })
      ∧ ((∀ surface abandoned, s.cal.strip ≠ .out surface id abandoned) →
        spoilReport id s = { s with queue := marked }))
    ∧ (u.spoiled = false → u.kind ≠ .strip →
      u.void = true ∨ (∀ i o, u.slot = some i → s.order? i = some o → u.number = some o.number →
        o.state ≠ .queued ∧ o.state ≠ .exposing ∧ o.state ≠ .fault) →
      spoilReport id s = { s with queue := marked }))
  ∧ ∀ (id i : Nat) (u : PrintUnit) (o : Order) (s : State), CleanStorage s →
    s.unit? id = some u → u.kind ≠ .strip → u.void = false → u.slot = some i →
    s.order? i = some o → u.number = some o.number →
    o.state = .queued ∨ o.state = .exposing ∨ o.state = .fault →
    (u.spoiled = false → u.lineage < 2 → (∃ free < s.queue.pool.length, s.unit? free = none) →
      ∃ made, s.unit? made = none ∧ (∀ k < made, (s.unit? k).isSome = true) ∧
        let t := spoilReport id s
        t.unit? id = some { u with spoiled := true }
        ∧ t.unit? made = some { u with
            kind := .reprint, lineage := u.lineage + 1, place := .queue, spoiled := false
            void := false, exposure := none }
        ∧ (∀ k, k ≠ id → k ≠ made → t.unit? k = s.unit? k)
        ∧ t = { s with
          queue := { s.queue with
            pool := t.queue.pool, signal := true
            rush := if o.queueClass = .rush then made :: s.queue.rush else s.queue.rush
            standard :=
              if o.queueClass = .standard then made :: s.queue.standard else s.queue.standard }
          orders := { s.orders with slots := s.orders.slots.set i (some
            { o with spoils := min (o.spoils + 1) 65535 }) } })
    ∧ (u.spoiled = false → u.lineage = 2 → ∀ entry : FigureEntry, s.figures? i = some entry →
        spoilReport id s = { s with
          queue := { s.queue with
            pool := s.queue.pool.set id (some { u with spoiled := true })
            figures := s.queue.figures.set i (some { entry with
              missing := entry.missing ++ [(u.position.getD 0, u.copy.getD 0)] }) }
          orders := { s.orders with slots := s.orders.slots.set i (some
            { o with state := .fault, spoils := min (o.spoils + 1) 65535
                     outstanding := o.outstanding - 1 }) }
          notices := (s.raise .orderFault o.number).notices })

/-- PROMOTE raises the queue class to RUSH and moves the order's STANDARD units to the tail of the RUSH section in
their order, answering their number; an order already RUSH moves none, and an order in another state is
refused WRONG_STATE (R44, R45). RETRY_FAULT of an order in FAULT with room makes one REPRINT of lineage 0 for each
pair of the missing list, in line and copy order, of the order's line's surface and its line figure record, at the
head of its class's section; it empties the missing list, raises O by their number and enters EXPOSING (R41);
without room it is refused FULL, and out of FAULT WRONG_STATE, which sets a DRAFT's idle seconds to 0 (R11, R17). -/
def Obligations.PromoteAndRetry : Prop :=
  ∀ (h : Header) (n i : Nat) (o : Order) (s : State),
    Calm s → CleanStorage s → Names s n i o →
    let its := fun (id : Nat) => (s.unit? id).any fun u => u.isOf i o.number
    let active := o.state = .held ∨ o.state = .queued ∨ o.state = .exposing ∨ o.state = .fault
    (active → o.queueClass = .standard →
      let moved := s.queue.standard.filter its
      exec (.promote h n) s = .next (settle (({ s with
        orders := { s.orders with
          slots := s.orders.slots.set i (some { o with queueClass := .rush }) }
        queue := { s.queue with
          standard := s.queue.standard.filter (fun id => !its id)
          rush := s.queue.rush ++ moved, signal := decide (moved ≠ []) } } :
        State).answered h (.promote n) .ok (item16 moved.length))))
    ∧ (active → o.queueClass = .rush →
      exec (.promote h n) s = .next (s.answered h (.promote n) .ok (item16 0)))
    ∧ (¬active → exec (.promote h n) s = .next (s.answered h (.promote n) .wrongState []))
    ∧ (o.state ≠ .fault →
      let touched := if o.state = .draft then { o with idle := 0 } else o
      exec (.retryFault h n) s = .next (({ s with orders := { s.orders with
        slots := s.orders.slots.set i (some touched) } } : State).answered h
          (.retryFault n) .wrongState []))
    ∧ (o.state = .fault → ∀ entry : FigureEntry, s.figures? i = some entry →
      (440 < s.queueCount + entry.missing.length →
        exec (.retryFault h n) s = .next (s.answered h (.retryFault n) .full []))
      ∧ (s.queueCount + entry.missing.length ≤ 440 →
        entry.missing.length ≤ s.queue.pool.countP Option.isNone →
        entry.figures.length = o.lines.length →
        (∀ pair ∈ entry.missing, 1 ≤ pair.1 ∧ pair.1 ≤ o.lines.length) →
        ∃ (ids : List Nat) (pairs : List (Nat × Nat)) (t : State),
          exec (.retryFault h n) s = .next (settle (t.answered h (.retryFault n) .ok
            (item16 entry.missing.length)))
          ∧ pairs.Perm entry.missing
          ∧ pairs.Pairwise (fun p q => p.1 < q.1 ∨ (p.1 = q.1 ∧ p.2 ≤ q.2))
          ∧ ids.length = entry.missing.length ∧ ids.Nodup ∧ (∀ id ∈ ids, s.unit? id = none)
          ∧ (∀ (k position copy : Nat) (l : Line) (f : LineFigure), pairs[k]? = some (position, copy) →
            o.lines[position - 1]? = some l → entry.figures[position - 1]? = some f →
            ids[k]?.bind t.unit? = some
              { kind := .reprint, slot := some i, number := some o.number, position := some position
                copy := some copy, lineage := 0, surface := l.surface, width := some f.width
                lead := f.lead, print := f.print, border := f.border, mark := f.mark
                place := .queue, spoiled := false, void := false, exposure := none })
          ∧ (∀ id, id ∉ ids → t.unit? id = s.unit? id)
          ∧ t = { s with
            queue := { s.queue with
              pool := t.queue.pool, signal := true
              figures := s.queue.figures.set i (some { entry with missing := [] })
              rush := if o.queueClass = .rush then ids ++ s.queue.rush else s.queue.rush
              standard := if o.queueClass = .standard then ids ++ s.queue.standard
                else s.queue.standard }
            orders := { s.orders with slots := s.orders.slots.set i (some
              { o with state := .exposing
                       outstanding := o.outstanding + entry.missing.length }) } }))

/-! ### Exposure arithmetic (R59 to R66) -/

/-- Whole stops and tenths of a step sum (R60): q is the greatest integer not above S / 10, also for a negative
S, and r = S − 10 q lies in 0..9; over the clamped sums q lies in −6..+6. The first time (R62): the base time
scaled by the fraction entry and the stops, in the numerator at or above 0 and in the divisor below, rounded half
up once; over every base time and step sum it lies in 3..512,000, and its extremes are those the rule names. -/
def Obligations.StepSumAndFirstTime : Prop :=
  ((∀ sum : Int, 10 * wholeStops sum ≤ sum ∧ sum < 10 * (wholeStops sum + 1)
     ∧ (tenths sum : Int) = sum - 10 * wholeStops sum ∧ tenths sum ≤ 9)
   ∧ (∀ sum : Int, -60 ≤ sum → sum ≤ 60 → -6 ≤ wholeStops sum ∧ wholeStops sum ≤ 6)
   ∧ (∀ sum : Int, sum < 0 → sum % 10 ≠ 0 → 0 < tenths sum ∧ wholeStops sum = sum.tdiv 10 - 1)
   ∧ [60, 59, 11, 6, 0, -1, -10, -11, -17, -51, -60].map (fun sum : Int => (wholeStops sum, tenths sum))
       = [(6, 0), (5, 9), (1, 1), (0, 6), (0, 0), (-1, 9), (-1, 0), (-2, 9), (-2, 3), (-6, 9), (-6, 0)])
  ∧ ((∀ (base : Nat) (sum : Int),
     let f := [1024, 1097, 1176, 1261, 1351, 1448, 1552, 1663, 1783, 1911].getD (sum % 10).toNat 0
     (∀ q : Nat, sum / 10 = q →
       firstTime base sum = (2 * (base * f * 2 ^ q) + 1024) / (2 * 1024))
     ∧ ∀ q : Nat, sum / 10 = -(q : Int) → 1 ≤ q →
       firstTime base sum = (2 * (base * f) + 1024 * 2 ^ q) / (2 * (1024 * 2 ^ q)))
   ∧ (∀ (base : Nat) (sum : Int), 200 ≤ base → base ≤ 8000 → -60 ≤ sum → sum ≤ 60 →
     3 ≤ firstTime base sum ∧ firstTime base sum ≤ 512000
     ∧ base * fractionTable.getD (tenths sum) 0 * 2 ^ (wholeStops sum).toNat ≤ 524288000)
   ∧ firstTime 8000 60 = 512000 ∧ firstTime 8000 59 = 477750 ∧ firstTime 200 (-60) = 3)

/-- Whatever a unit's corrections and the CALIBRATION sheet hold, each exposure time lies in 40..16000 and is the
lamp-scaled time when that lies inside, its clamp flag is set exactly when it lies outside, and the line period
is the sum of the times and 32, but at least 400, so it lies in 400..48032; a larger step sum never gives a
shorter time (R59, R61, R63, R64, R66). -/
def Obligations.ExposureTimesAreBounded : Prop :=
  (∀ (cal : Sheet) (surface : Nat) (k : Corrections),
    let x := dose cal surface k
    let second := fun (channel : Nat) (colour : Int) =>
      let sum := max (-60) (min 60 (k.d + colour + cal.signed (16 + 3 * surface + channel)))
      (2 * (firstTime (cal.value (3 * surface + channel)) sum * cal.value 52) + 1024) / 2048
    (∀ p ∈ [(x.timeR, x.clampR, second 0 k.c), (x.timeG, x.clampG, second 1 k.m),
            (x.timeB, x.clampB, second 2 k.y)],
      40 ≤ p.1 ∧ p.1 ≤ 16000
      ∧ (p.2.1 = true ↔ p.2.2 < 40 ∨ 16000 < p.2.2)
      ∧ (p.2.1 = false → p.1 = p.2.2) ∧ (p.2.2 < 40 → p.1 = 40) ∧ (16000 < p.2.2 → p.1 = 16000))
    ∧ x.period = max (x.timeR + x.timeG + x.timeB + 32) 400 ∧ 400 ≤ x.period ∧ x.period ≤ 48032)
  ∧ ∀ (base : Nat) (a b : Int), a ≤ b → firstTime base a ≤ firstTime base b

/-! ### The engine and its magazines (R72 to R77, R80 to R93) -/

/-- HALT adds LAB_HALT, RESUME removes it, CLEAR_FAULT removes CUTTER_FAULT, sets the consecutive-blind count to 0
and, when its item is set, the stray-mark and blind-cut counts; each answers the hold-reason set that then stands,
CLEAR_FAULT with these two counts as they were, which is the model's reading of R105 (log entry 25). HALT stops no
unit and no change, and an IDLE engine becomes HELD at once. A removal that empties the set of a HELD engine is
followed by a boundary; any other leaves the engine's state (R72 to R74, R105). -/
def Obligations.HoldRequestsAnswer : Prop :=
  ∀ (h : Header) (s : State), Calm s →
    let e := s.engine
    let held := { e.holds with labHalt := true }
    let resumed := { e.holds with labHalt := false }
    let cleared := { e.holds with cutterFault := false }
    rightClass .halt = .control ∧ rightClass .resume = .control
    ∧ (∀ counts, rightClass (.clearFault counts) = .control)
    ∧ exec (.halt h) s = .next (({ s with engine :=
        if e.state = .idle then { e with holds := held, state := .held, selectionWaiting := false }
        else { e with holds := held } } : State).answered h .halt .ok
          (itemFlag e.current.isSome ++ itemFlag (decide (e.state = .switching)) ++ item8 held.mask))
    ∧ (let s1 := { s with engine := { e with holds := resumed } }
      let emptied := e.holds.labHalt = true ∧ resumed.isEmpty = true ∧ e.state = .held
      (¬emptied →
        exec (.resume h) s = .next (s1.answered h .resume .ok (item8 resumed.mask)))
      ∧ (emptied →
        exec (.resume h) s =
          .next (settle ((boundary s1).answered h .resume .ok (item8 resumed.mask)))))
    ∧ ∀ counts : Option Bool,
      let s1 := { s with
        engine := { e with holds := cleared }
        transit := { s.transit with
          consecutiveBlind := 0
          strayMarks := if counts = some true then 0 else s.transit.strayMarks
          blindCuts := if counts = some true then 0 else s.transit.blindCuts } }
      let body := item8 cleared.mask ++ item16 s.transit.strayMarks ++ item16 s.transit.blindCuts
      let emptied := e.holds.cutterFault = true ∧ cleared.isEmpty = true ∧ e.state = .held
      (¬emptied →
        exec (.clearFault h counts) s = .next (s1.answered h (.clearFault counts) .ok body))
      ∧ (emptied → exec (.clearFault h counts) s =
          .next (settle ((boundary s1).answered h (.clearFault counts) .ok body)))

/-- SELECT_MAGAZINE sets the select-pending flag and signals the queue, and is refused while SWITCHING (R86).
LOAD_MAGAZINE sets a magazine's remaining length to the metres times 20,000, signals the queue and answers the
length; a magazine or length out of range is refused BAD_VALUE, and a magazine that is absent, at its paper
end, in a change, or under the head of an EXPOSING engine WRONG_STATE (R82). The magazine sensors (R80, R81):
an insertion takes the width and surface its code lines spell and keeps the remaining length; a removal or a
paper-end empties the record, raises PAPER_OUT with the magazine, and spoils the unit in an EXPOSING engine when
the magazine is the active one; a paper-end sensor that clears takes back the flag. Every change signals the
queue. An insertion of a present magazine, a removal of an absent one and a clearing of a clear flag have no
effect (log entry 1); an absent magazine's paper end is an event, its clearing none (log entry 23). -/
def Obligations.MagazinesAreChangedAndSensed : Prop :=
  (∀ (h : Header) (s : State), Calm s →
     (s.engine.state = .switching →
       exec (.selectMagazine h) s = .next (s.answered h .selectMagazine .wrongState []))
     ∧ (s.engine.state ≠ .switching →
       exec (.selectMagazine h) s = .next (settle (({ s with
         engine := { s.engine with selectPending := true }
         queue := { s.queue with signal := true } } : State).answered h .selectMagazine .ok [])))
     ∧ ∀ code metres : Nat,
       let r : Request := .loadMagazine code metres
       (1 < code ∨ metres = 0 ∨ 350 < metres →
         exec (.loadMagazine h code metres) s = .next (s.answered h r .badValue []))
       ∧ (code ≤ 1 → 1 ≤ metres → metres ≤ 350 →
         let m : Magazine := if code = 0 then .a else .b
         let record := if code = 0 then s.engine.magA else s.engine.magB
         let refused := record.present = false ∨ record.paperEnd = true ∨ s.engine.state = .switching
           ∨ (m = s.engine.active ∧ s.engine.state = .exposing)
         (refused → exec (.loadMagazine h code metres) s = .next (s.answered h r .wrongState []))
         ∧ (¬refused →
           let loaded := { record with remaining := metres * 20000 }
           exec (.loadMagazine h code metres) s = .next (settle (({ s with
             engine := if code = 0 then { s.engine with magA := loaded }
               else { s.engine with magB := loaded }
             queue := { s.queue with signal := true } } : State).answered h r .ok
               (item32 (metres * 20000)))))))
  ∧ (∀ (m : Magazine) (s : State), Running s →
     let record := s.engine.mag m
     let put := fun (r : MagazineRecord) => { s with
       engine := match m with
         | .a => { s.engine with magA := r }
         | .b => { s.engine with magB := r }
       queue := { s.queue with signal := true } }
     let out := fun (r : MagazineRecord) =>
       let s1 := (put r).raise .paperOut (if m = .a then 0 else 1)
       settle (if m = s.engine.active ∧ s.engine.state = .exposing then engineSpoil s1 else s1)
     (∀ (width surface : Nat) (atEnd : Bool), width ≤ 7 → surface ≤ 3 →
       (record.present = true → exec (.magazineInserted m width surface atEnd) s = .next s)
       ∧ (record.present = false →
         exec (.magazineInserted m width surface atEnd) s = .next (settle (put
           { present := true, surface := some surface, remaining := record.remaining, paperEnd := atEnd
             width := [none, some 89, some 102, some 127, some 152, some 203, some 254,
               some 305].getD width none }))))
     ∧ (record.present = false → exec (.magazineRemoved m) s = .next s)
     ∧ (record.present = true → exec (.magazineRemoved m) s = .next (out
         { present := false, width := none, surface := none, remaining := 0, paperEnd := false }))
     ∧ (record.paperEnd = true → exec (.paperEnd m) s = .next s)
     ∧ (record.paperEnd = false →
         exec (.paperEnd m) s = .next (out { record with remaining := 0, paperEnd := true }))
     ∧ (record.present = false ∨ record.paperEnd = false → exec (.paperEndClear m) s = .next s)
     ∧ (record.present = true → record.paperEnd = true →
         exec (.paperEndClear m) s = .next (settle (put { record with paperEnd := false }))))

/-- LUT_WRITE stores its levels in the inactive bank from the starting code on and leaves every other entry of
both banks; a bank, channel, count, end or level out of range is refused BAD_VALUE, and the active bank
WRONG_STATE. LUT_SWITCH sets the swap-pending flag and answers the active bank (R91). -/
def Obligations.LutRequestsWriteTheInactiveBank : Prop :=
  ∀ (h : Header) (s : State), s.accepts = true →
    exec (.lutSwitch h) s = .next (({ s with engine := { s.engine with swapPending := true } } :
      State).answered h .lutSwitch .ok (item8 s.engine.activeBank.val ++ itemFlag true))
    ∧ ∀ (bank channel start : Nat) (levels : List Nat),
      let r : Request := .lutWrite bank channel start levels
      let bad := 1 < bank ∨ 2 < channel ∨ levels.length = 0 ∨ 64 < levels.length
        ∨ 256 < start + levels.length ∨ ∃ level ∈ levels, 1023 < level
      (bad → exec (.lutWrite h bank channel start levels) s = .next (s.answered h r .badValue []))
      ∧ (¬bad → bank = s.engine.activeBank.val →
        exec (.lutWrite h bank channel start levels) s = .next (s.answered h r .wrongState []))
      ∧ (¬bad → bank ≠ s.engine.activeBank.val →
        (s.engine.lut0.red.length = 256 ∧ s.engine.lut0.green.length = 256
          ∧ s.engine.lut0.blue.length = 256 ∧ s.engine.lut1.red.length = 256
          ∧ s.engine.lut1.green.length = 256 ∧ s.engine.lut1.blue.length = 256) →
        let table := fun (e : Engine) (b c : Nat) =>
          let lut := if b = 0 then e.lut0 else e.lut1
          if c = 0 then lut.red else if c = 1 then lut.green else lut.blue
        ∃ e : Engine,
          exec (.lutWrite h bank channel start levels) s =
            .next (({ s with engine := e } : State).answered h r .ok [])
          ∧ e = { s.engine with lut0 := e.lut0, lut1 := e.lut1 }
          ∧ ∀ b c code : Nat, b ≤ 1 → c ≤ 2 → code ≤ 255 →
            (table e b c).getD code 0 =
              if b = bank ∧ c = channel ∧ start ≤ code ∧ code < start + levels.length
              then levels.getD (code - start) 0
              else (table s.engine b c).getD code 0)

/-- The requests that only read answer OK and change nothing (R28, R52, R93, R110, R127, R154): READ_CLOCK,
READ_BINS, READ_ENGINE, and with no write cycle running READ_TRAIN, READ_CAL and READ_QUEUE. Their items are spelled
out, in the layout of log entry 21. READ_ENGINE: R93's table, a door sent OPEN as 0 in READ_BINS, the lamp low as 1.
While the switch timer runs, the seconds left, which READ_ENGINE draws, are a free value not above the switch time
(log entry 7). READ_TRAIN: the summary, then up to 16 entries from the place named, E, W and the distance to the
window's close absent while pending. READ_CAL: each surface's counter, due flag, strict hold and last outcome, the
whole last result of the surface named, the figures of the CALIBRATION sheet, each absent while the sheet is BAD, and
the strip record, its unit id, place and abandoned flag in OUT and its conversion in READING. READ_QUEUE: the summary,
then up to 16 units from the position named, or those of one order. Both lists are cut to the entries that fit in 240
bytes with the flag that further ones lie beyond (R158). A starting place outside 1..64, a surface above 3 and a
starting position outside 1..512 are refused BAD_VALUE, also during a write cycle. READ_QUEUE, which reads the held
list's head through the check code (log entry 33), changes nothing on clean storage. -/
def Obligations.ReadsChangeNothing : Prop :=
  ∀ (h : Header) (s : State), Calm s →
    let general := fun (k default : Nat) =>
      if s.store.general.bad = true then default else s.store.general.value k
    let cut := fun (used : Nat) (entries : List (List Byte)) (more : Bool) =>
      let fits := (List.range entries.length).countP fun k =>
        decide (used + 2 + ((entries.take (k + 1)).map List.length).sum ≤ 240)
      item8 fits ++ (entries.take fits).flatten ++ itemFlag (more || decide (fits < entries.length))
    let exposure := fun (x : Exposure) =>
      item16 x.timeR ++ item16 x.timeG ++ item16 x.timeB
        ++ itemFlag x.clampR ++ itemFlag x.clampG ++ itemFlag x.clampB ++ item16 x.period
    let unit := fun (id : Nat) (u : PrintUnit) =>
      item16 id ++ item8 u.kind.code ++ itemOption item16 u.number ++ itemOption item8 u.position
        ++ itemOption item8 u.copy ++ item8 u.lineage
    let engine := fun (left : Option Nat) =>
      let e := s.engine
      let current := e.current.bind fun id => (s.unit? id).map fun u => (id, u)
      let lines := match current, e.phase with
        | some (_, u), some .lead => u.lead
        | some (_, u), some .topBorder => u.border
        | some (_, u), some .image => if u.kind = .strip then 800 else u.print - 2 * u.border
        | some (_, u), some .bottomBorder => u.border
        | some (_, u), some .mark => u.mark
        | _, _ => 0
      let buffer := fun (b : LineBuffer) => match b with
        | .empty => item8 0
        | .requested k => item8 1 ++ item16 k ++ item8 0
        | .complete k _ => item8 1 ++ item16 k ++ item8 1
      let magazine := fun (m : MagazineRecord) =>
        itemFlag m.present ++ itemOption item16 m.width ++ itemOption item8 m.surface ++ item32 m.remaining
          ++ itemFlag m.paperEnd
      item8 e.state.code
        ++ item8 (match e.phase with
          | none => 0
          | some .lead => 1
          | some .topBorder => 2
          | some .image => 3
          | some .bottomBorder => 4
          | some .mark => 5)
        ++ itemFlag e.awaitingSettings ++ itemFlag e.firstLineTimer
        ++ itemOption (fun (id, u) => unit id u ++ itemFlag u.spoiled ++ itemFlag u.void) current
        ++ itemOption exposure (current.bind fun (_, u) => u.exposure)
        ++ item16 e.line ++ item16 lines ++ buffer e.buffer1 ++ buffer e.buffer2
        ++ item8 (e.holds.labHalt.toNat + 2 * e.holds.cutterFault.toNat + 4 * e.holds.lampLow.toNat
          + 8 * e.holds.trainFull.toNat + 16 * e.holds.sheetBad.toNat)
        ++ itemFlag e.selectPending ++ itemOption item8 left
        ++ item8 (if e.active = .a then 0 else 1) ++ magazine e.magA ++ magazine e.magB
        ++ item8 e.activeBank.val ++ itemFlag e.swapPending
        ++ itemFlag e.lampIsLow ++ itemFlag e.lampTimer ++ item16 e.discardedLines
    let train := fun (place : Nat) =>
      let t := s.transit
      let entry := fun (e : TrainEntry) (k : Nat) => ((s.unit? e.unit).map fun u =>
        item8 k ++ unit e.unit u ++ itemFlag u.spoiled ++ itemFlag u.void ++ itemWord e.mark
          ++ itemOption itemWord (e.figures.map fun f => f.expected)
          ++ itemOption item8 (e.figures.map fun f => f.window)
          ++ itemOption itemWord (e.figures.map fun f => f.expected + BitVec.ofNat 32 f.window - t.path)
          ++ (u.exposure.map exposure).getD []).getD []
      let summary := itemWord t.path ++ item8 t.train.length ++ item8 t.consecutiveBlind
        ++ itemFlag s.engine.holds.cutterFault ++ item16 t.strayMarks ++ item16 t.blindCuts
        ++ item32 (general 3 90000) ++ item8 (general 2 40)
      let found := (t.train.zipIdx 1).drop (place - 1)
      summary ++ cut summary.length ((found.take 16).map fun (e, k) => entry e k) (decide (16 < found.length))
    let calibration := fun (surface : Nat) =>
      let sheet := s.store.calibration
      let time := fun (t : ShopTime) => item16 t.minute ++ item8 t.second ++ itemFlag t.isSet
      let known := fun (item : List Byte) => if sheet.bad = true then item8 0 else item8 1 ++ item
      let wide := fun (c : Channels) => itemInt16 c.r ++ itemInt16 c.g ++ itemInt16 c.b
      let narrow := fun (c : Channels) => itemInt8 c.r ++ itemInt8 c.g ++ itemInt8 c.b
      ([0, 1, 2, 3].flatMap fun u =>
          let r := s.surface u
          item16 r.counter ++ itemFlag r.due
            ++ itemFlag (r.due && !sheet.bad && decide (sheet.value (48 + u) ≠ 0))
            ++ itemOption (fun (l : LastResult) => item8 l.outcome.code) r.last
            ++ itemOption (fun (c : AbandonCause) => item8 c.code) (r.last.bind fun l => l.cause)
            ++ itemOption (fun (l : LastResult) => time l.time) r.last)
        ++ itemOption (fun (l : LastResult) =>
            item8 l.outcome.code ++ itemOption (fun c => item8 c.code) l.cause ++ time l.time
              ++ itemOption (fun values => values.flatMap item16) l.readings
              ++ itemOption wide l.densities ++ itemOption wide l.errors ++ itemOption wide l.steps
              ++ itemOption narrow l.before ++ itemOption narrow l.after
              ++ itemFlag l.clamps.r ++ itemFlag l.clamps.g ++ itemFlag l.clamps.b) (s.surface surface).last
        ++ ([0, 1, 2, 3].flatMap fun u =>
          known (item16 (sheet.value (44 + u))) ++ known (itemFlag (decide (sheet.value (48 + u) ≠ 0)))
            ++ ([0, 1, 2].flatMap fun c => known (itemInt8 (sheet.signed (16 + 3 * u + c))))
            ++ ([0, 1, 2].flatMap fun c => known (item16 (sheet.value (32 + 3 * u + c)))))
        ++ known (item8 (sheet.value 53)) ++ known (item8 (sheet.value 54)) ++ known (item8 (sheet.value 55))
        ++ known (item8 (sheet.value 56))
        ++ (match s.cal.strip with
          | .none => item8 0 ++ item8 0 ++ item8 0 ++ item8 0 ++ item8 0 ++ item8 0 ++ item8 0 ++ item8 0
          | .out u id abandoned =>
            item8 1 ++ item8 1 ++ item8 u ++ item8 1 ++ item16 id
              ++ itemOption (fun (u : PrintUnit) => item8 u.place.code) (s.unit? id)
              ++ item8 1 ++ itemFlag abandoned ++ (if abandoned = true then item8 1 ++ item8 0 else item8 0)
              ++ item8 0 ++ item8 0
          | .reading u _ conversion values =>
            item8 2 ++ item8 1 ++ item8 u ++ item8 0 ++ item8 0 ++ item8 0 ++ item8 0
              ++ item8 1 ++ item8 conversion ++ itemList8 item16 values
          | .settling u values =>
            item8 3 ++ item8 1 ++ item8 u ++ item8 0 ++ item8 0 ++ item8 0 ++ item8 0 ++ item8 0
              ++ itemList8 item16 values)
    let queue := fun (start : Nat) (wanted : Nat → Bool) =>
      let q := s.queue
      let ids := q.strip ++ q.rush ++ q.standard
      let flight := s.transit.train.length + s.engine.current.toList.length
      let summary := item8 q.strip.length ++ item16 q.rush.length ++ item16 q.standard.length
        ++ item16 ids.length ++ item8 flight ++ item16 (ids.length + flight) ++ item8 q.runCount
        ++ item8 (general 5 6) ++ item8 s.orders.heldList.length
        ++ itemOption item16 (s.orders.heldList.head?.bind fun i => (s.order? i).map fun o => o.number)
        ++ itemOption (fun (c : HeldCause) => item8 c.code) q.heldCause
      let entry := fun (id position : Nat) => ((s.unit? id).map fun u =>
        item16 position ++ item8 (if id ∈ q.strip then 0 else if id ∈ q.rush then 1 else 2) ++ unit id u
          ++ item8 u.surface ++ itemOption item16 u.width ++ item16 (u.lead + u.print + u.mark)).getD []
      let found := (ids.zipIdx 1).filter fun (id, position) => decide (start ≤ position) && wanted id
      summary ++ cut summary.length ((found.take 16).map fun (id, position) => entry id position)
        (decide (16 < found.length))
    exec (.readClock h) s = .next (s.answered h .readClock .ok
      (item16 s.clock.minute ++ item8 s.clock.second ++ itemFlag s.clock.isSet))
    ∧ exec (.readBins h) s = .next (s.answered h .readBins .ok
      ((s.sorter.bins.flatMap fun b =>
          item8 b.state.code ++ itemOption item16 b.number ++ item8 b.count
            ++ itemFlag (!b.isOpen) ++ itemFlag b.opened)
        ++ item16 s.sorter.overflow ++ item16 s.sorter.reject ++ item16 s.sorter.unclaimed
        ++ item8 s.sorter.capacity ++ item8 s.sorter.gate.code
        ++ item8 (s.sorter.bins.countP fun b => b.state == .free && !b.isOpen)))
    ∧ (s.engine.switchTimer = none →
      exec (.readEngine h) s = .next (s.answered h .readEngine .ok (engine none)))
    ∧ (∀ time, s.engine.switchTimer = some time →
      ∃ left ≤ time, exec (.readEngine h) s = .next (({ s with draws := s.draws + 1 } : State).answered
          h .readEngine .ok (engine (some left))))
    ∧ (∀ (place surface start : Nat) (number : Option Nat),
      (place = 0 ∨ 64 < place →
        exec (.readTrain h place) s = .next (s.answered h (.readTrain place) .badValue []))
      ∧ (3 < surface →
        exec (.readCal h surface) s = .next (s.answered h (.readCal surface) .badValue []))
      ∧ (start = 0 ∨ 512 < start → exec (.readQueue h start number) s =
          .next (s.answered h (.readQueue start number) .badValue [])))
    ∧ (s.cycleRuns = false →
      (∀ place, 1 ≤ place → place ≤ 64 →
        exec (.readTrain h place) s =
          .next (s.answered h (.readTrain place) .ok (train place)))
      ∧ (∀ surface ≤ 3,
        exec (.readCal h surface) s =
          .next (s.answered h (.readCal surface) .ok (calibration surface)))
      ∧ (∀ start, 1 ≤ start → start ≤ 512 → CleanStorage s →
        exec (.readQueue h start none) s =
          .next (s.answered h (.readQueue start none) .ok (queue start fun _ => true))
        ∧ ∀ n i o, Names s n i o →
          exec (.readQueue h start (some n)) s = .next (s.answered h (.readQueue start (some n)) .ok
            (queue start fun id => (s.unit? id).any fun u => u.isOf i o.number))))

/-- The unit start of a granted unit with no write cycle running, on clean storage (R71, R75): the engine is EXPOSING
it with both line buffers empty and no first-line timer; the unit takes the times of the Dose Calculator, the active
magazine gives the unit's length of paper, which signals the queue (R48), and a pending LUT swap is made. For a PRINT
or REPRINT of a sound order the handle of the unit's line is held, and the order is reported EXPOSING and any clamp on
its line. A STRIP, a unit of a DAMAGED order and one with no order have the handle 0, no corrections and no order to
report to. The first phase with lines then begins (R76): LEAD unlit; with a lead of no lines a top border at border
tone, or IMAGE, in which an unspoiled print requests lines 0 and 1 and waits for line 0 (R87). Under LAMP_LOW an
unspoiled unit whose first phase is its first lit one is spoiled at that entry and exposed at border tone (R92). A
start that waited for its settings completes in the same way; by log entry 20 no run reaches that wait. -/
def Obligations.UnitStartTakesItsFigures : Prop :=
  ∀ (id : Nat) (u : PrintUnit) (passed rest : List Phase) (next : Phase) (s : State), CleanStorage s →
    s.cycleRuns = false → s.unit? id = some u →
    [Phase.lead, .topBorder, .image, .bottomBorder, .mark] = passed ++ next :: rest →
    (∀ p ∈ passed, u.phaseLines p = 0) → u.phaseLines next ≠ 0 →
    let e := s.engine
    let tone := fun (level : Nat) => HeadOutput.uniform { r := level, g := level, b := level }
    let record := e.mag e.active
    let used := { record with remaining := record.remaining - (u.lead + u.print + u.mark) }
    let dips := (next = .topBorder ∨ (next = .image ∧ u.border = 0)) ∧ e.holds.lampLow = true ∧ u.spoiled = false
    let starts := fun (handle : Word32) (x : Exposure) (slots : List (Option Order)) =>
      let begun := fun (e1 : Engine) => { s with
        orders := { s.orders with slots }
        queue := { s.queue with
          pool := s.queue.pool.set id (some { u with exposure := some x }), signal := true }
        engine := { e1 with
          magA := if e.active = .a then used else e.magA
          magB := if e.active = .b then used else e.magB
          handle, awaitingSettings := false
          activeBank := if e.swapPending = true then 1 - e.activeBank else e.activeBank
          swapPending := false, phase := some next, line := 0 } }
      let enters := fun (e1 : Engine) => begun (match next with
        | .lead => { e1 with head := .unlit }
        | .mark => { e1 with head := tone 1023 }
        | .image =>
          if u.spoiled = true then { e1 with head := tone 0 }
          else if u.kind = .strip then { e1 with head := .unlit }
          else { e1 with
            buffer1 := .requested 0, firstLineTimer := true, head := .unlit
            buffer2 := if 1 < u.print - 2 * u.border then .requested 1 else .empty }
        | _ => { e1 with head := tone 0 })
      let dipped := fun (e1 : Engine) =>
        let spoilt := spoilReport id (begun e1)
        { spoilt with engine := { spoilt.engine with
          buffer1 := .empty, buffer2 := .empty, firstLineTimer := false, head := tone 0 } }
      let granted := { e with
        state := .exposing, current := some id, buffer1 := .empty, buffer2 := .empty
        firstLineTimer := false }
      (¬dips → beginStart id s = enters granted)
      ∧ (dips → beginStart id s = dipped granted)
      ∧ (Running s → e.awaitingSettings = true → e.state = .exposing → e.current = some id →
        (¬dips → exec (.waitingReadProceeds .unitStart) s = .next { enters e with
          queue := { (enters e).queue with signal := false } })
        ∧ (dips → exec (.waitingReadProceeds .unitStart) s = .next (settle (dipped e))))
    (∀ (i p : Nat) (o : Order) (l : Line), u.kind ≠ .strip → u.slot = some i → s.order? i = some o →
      o.state ≠ .damaged → u.number = some o.number → u.position = some p → 1 ≤ p →
      o.lines[p - 1]? = some l →
      let x := dose s.store.calibration u.surface { d := l.d, c := l.c, m := l.m, y := l.y }
      let started := if o.state = .queued then { o with state := .exposing } else o
      starts l.handle x (s.orders.slots.set i (some
        (if x.clampR = true ∨ x.clampG = true ∨ x.clampB = true then
          { started with clamped := true
                         lines := o.lines.set (p - 1) { l with clamped := true } }
        else started))))
    ∧ ((∀ i, u.slot = some i → u.kind ≠ .strip ∧ ∀ o, s.order? i = some o →
        o.state = .damaged ∨ u.number ≠ some o.number) →
      starts 0 (dose s.store.calibration u.surface { d := 0, c := 0, m := 0, y := 0 }) s.orders.slots)

/-- The end of a line period (R76, R77, R79, R87, R89, R92, R99): the paper advances one line. Within a phase the
next line begins: unlit in LEAD, mark in MARK, border tone in a border and in every line of a spoiled unit's
IMAGE; a strip's lines 0 to 399 unlit and 400 to 799 at the active bank's levels for code 128; an image line
complete in either buffer goes to the head through the active bank and the line two ahead is requested into that
buffer; a line complete in neither is an underflow: the unit is spoiled, its requests are forgotten, the line is
at border tone and FEED_UNDERFLOW is raised. At a phase's last line the next phase with lines begins: an unspoiled
print entering IMAGE requests lines 0 and 1 and waits for line 0, and under LAMP_LOW an unspoiled unit entering
its first lit phase is spoiled and exposed at border tone. After the last MARK line the unit joins the train's
tail with its figures, pending while a write cycle runs; an unspoiled print is counted on its surface, and its due
comparison waits for that cycle; with none, a count at or above an interval that is not 0 of a good CALIBRATION sheet
makes the surface due, raises CAL_DUE with it and signals the engine (R143, R144). TRAIN_FULL is added when the train
then holds 64, and a boundary follows, whose selection waits while the cycle runs. -/
def Obligations.LinesFollowAndHandOver : Prop :=
  ∀ (id : Nat) (u : PrintUnit) (phase : Phase) (s : State),
    Running s → s.engine.state = .exposing → s.engine.firstLineTimer = false →
    s.engine.phase = some phase → s.engine.current = some id → s.unit? id = some u →
    let e := s.engine
    let tone := fun (level : Nat) => HeadOutput.uniform { r := level, g := level, b := level }
    let lut := if e.activeBank = 0 then e.lut0 else e.lut1
    let convert := fun (p : Pixel) =>
      ({ r := lut.red.getD p.r.toNat 0, g := lut.green.getD p.g.toNat 0
         b := lut.blue.getD p.b.toNat 0 } : HeadLevel)
    let line := fun (e1 : Engine) =>
      { s with engine := { e1 with advances := e.advances + 1, line := e.line + 1 } }
    let ahead := if e.line + 3 < u.print - 2 * u.border then LineBuffer.requested (e.line + 3) else .empty
    let afterwards : List Phase := match phase with
      | .lead => [.topBorder, .image, .bottomBorder, .mark]
      | .topBorder => [.image, .bottomBorder, .mark]
      | .image => [.bottomBorder, .mark]
      | .bottomBorder => [.mark]
      | .mark => []
    (e.line + 1 < u.phaseLines phase → phase ≠ .image →
      exec .linePeriodEnd s = .next (line { e with head := match phase with
        | .lead => .unlit
        | .mark => tone 1023
        | _ => tone 0 }))
    ∧ (phase = .image → e.line + 1 < u.phaseLines .image →
      (u.spoiled = true → exec .linePeriodEnd s = .next (line { e with head := tone 0 }))
      ∧ (u.spoiled = false → u.kind = .strip →
        exec .linePeriodEnd s = .next (line { e with head :=
          if e.line + 1 < 400 then .unlit else .uniform (convert { r := 128, g := 128, b := 128 }) }))
      ∧ (u.spoiled = false → u.kind ≠ .strip →
        (∀ pixels, e.buffer1 = .complete (e.line + 1) pixels →
          exec .linePeriodEnd s = .next (line { e with
            head := .image (pixels.map convert), buffer1 := ahead }))
        ∧ ((∀ pixels, e.buffer1 ≠ .complete (e.line + 1) pixels) →
          (∀ pixels, e.buffer2 = .complete (e.line + 1) pixels →
            exec .linePeriodEnd s = .next (line { e with
              head := .image (pixels.map convert), buffer2 := ahead }))
          ∧ ((∀ pixels, e.buffer2 ≠ .complete (e.line + 1) pixels) →
            let spoilt := spoilReport id (line e)
            exec .linePeriodEnd s = .next (settle (({ spoilt with engine := { spoilt.engine with
              buffer1 := .empty, buffer2 := .empty, head := tone 0 } } : State).raise .feedUnderflow
                (u.number.getD 0)))))))
    ∧ (∀ (passed rest : List Phase) (next : Phase), u.phaseLines phase ≤ e.line + 1 →
      afterwards = passed ++ next :: rest → (∀ p ∈ passed, u.phaseLines p = 0) →
      u.phaseLines next ≠ 0 →
      let entered := fun (e1 : Engine) =>
        { s with engine := { e1 with advances := e.advances + 1, phase := some next, line := 0 } }
      let lit := next = .topBorder ∨ (next = .image ∧ u.border = 0)
      (¬(lit ∧ e.holds.lampLow = true ∧ u.spoiled = false) →
        exec .linePeriodEnd s = .next (entered (match next with
          | .lead => e
          | .mark => { e with head := tone 1023 }
          | .image =>
            if u.spoiled = true then { e with head := tone 0 }
            else if u.kind = .strip then { e with head := .unlit }
            else { e with
              buffer1 := .requested 0, firstLineTimer := true, head := .unlit
              buffer2 := if 1 < u.print - 2 * u.border then .requested 1 else .empty }
          | _ => { e with head := tone 0 })))
      ∧ (lit → e.holds.lampLow = true → u.spoiled = false →
        let spoilt := spoilReport id (entered e)
        exec .linePeriodEnd s = .next (settle { spoilt with engine := { spoilt.engine with
          buffer1 := .empty, buffer2 := .empty, head := tone 0 } })))
    ∧ (phase = .mark → e.line + 1 = u.mark → s.transit.train.length < 64 →
      let counts := ¬(u.kind = .strip ∨ u.spoiled = true ∨ u.void = true
        ∨ (s.surface u.surface).due = true)
      let counter := min ((s.surface u.surface).counter + 1) 4000
      let counted : SurfaceCal := { s.surface u.surface with counter, checkWaiting := true }
      let engine := { e with
        advances := e.advances + 1, current := none, phase := none, line := 0, head := .unlit
        holds := { e.holds with
          trainFull := e.holds.trainFull || decide (s.transit.train.length = 63) } }
      let train := fun (figures : Option CutFigures) => { s.transit with train := s.transit.train ++
        [{ unit := id, mark := s.transit.path, figures }] }
      let queue := { s.queue with pool := s.queue.pool.set id (some { u with place := .train }) }
      (s.cycleRuns = true → exec .linePeriodEnd s = .next (settle (boundary { s with
        transit := train none, engine, queue
        cal := if counts then
          { s.cal with surfaces := s.cal.surfaces.set u.surface counted } else s.cal })))
      ∧ (s.cycleRuns = false → u.surface < s.cal.surfaces.length →
        let n := s.store.calibration.value (44 + u.surface)
        let found := decide (counts ∧ s.store.calibration.bad = false ∧ n ≠ 0 ∧ n ≤ counter)
        let record := { counted with due := found, checkWaiting := false }
        let t := { s with
          transit := train (some
            { expected := s.transit.path + BitVec.ofNat 32 s.store.general.transitLength
              window := s.store.general.markWindow })
          engine, queue := { queue with signal := found }
          cal := if counts then
            { s.cal with surfaces := s.cal.surfaces.set u.surface record } else s.cal }
        exec .linePeriodEnd s = .next (settle (boundary
          (if found = true then t.raise .calDue u.surface else t)))))

/-- SWITCH_TIMER_EXPIRY gives the engine the other magazine and a boundary (R85); with no change running it has
no effect. FIRST_LINE_TIMEOUT is a feed underflow: the unit is SPOILED, its image requests are forgotten, line
0 begins at border tone, and FEED_UNDERFLOW is raised with its order's number (R79, R87, R89). The lamp supply
(R92): going low starts the timer, unless LAMP_LOW stands already; recovery stops it, and takes LAMP_LOW away
with a boundary when that empties the set of a HELD engine. At the expiry LAMP_LOW is added and LAMP_DIP
raised: with detail 0 when no unit is in a lit phase, and otherwise with the number of the unit the expiry
spoiled. An expiry with no timer running, a recovery with the supply up and a lowering with it low have no
effect (log entry 1). -/
def Obligations.TimersAndLampSupply : Prop :=
  (∀ s : State, Running s →
     (s.engine.switchTimer = none → exec .switchTimerExpiry s = .next s)
     ∧ (∀ time, s.engine.switchTimer = some time →
       exec .switchTimerExpiry s = .next (settle (boundary { s with engine := { s.engine with
         active := s.engine.active.other, switchTimer := none
         actuator := s.engine.active.other } })))
     ∧ (s.engine.firstLineTimer = false → exec .firstLineTimeout s = .next s)
     ∧ ∀ id u, s.engine.firstLineTimer = true → s.engine.state = .exposing →
       s.engine.current = some id → s.unit? id = some u → u.spoiled = false → CleanStorage s →
       ∃ t : State,
         exec .firstLineTimeout s = .next t
         ∧ t.unit? id = some { u with spoiled := true }
         ∧ t.engine = { s.engine with
             buffer1 := .empty, buffer2 := .empty, firstLineTimer := false
             head := .uniform { r := 0, g := 0, b := 0 } }
         ∧ t.notices.kinds[5]? = ((s.notices.kinds[5]?).map fun (n : Notice) =>
             { n with pending := true, count := min (n.count + 1) 255
                      detail := some (u.number.getD 0) })
         ∧ t = { s with queue := t.queue, engine := t.engine, notices := t.notices
                        orders := { s.orders with slots := t.orders.slots }
                        cal := { s.cal with strip := t.cal.strip } })
  ∧ (∀ s : State, Running s →
     let e := s.engine
     exec .lampSupplyLow s = .next { s with engine :=
       if e.lampIsLow = true then e
       else { e with lampIsLow := true, lampTimer := e.lampTimer || !e.holds.lampLow } }
     ∧ (e.lampIsLow = false → exec .lampSupplyRecovery s = .next s)
     ∧ (e.lampIsLow = true →
       let s1 := { s with engine := { e with
         lampIsLow := false, lampTimer := false, holds := { e.holds with lampLow := false } } }
       let emptied := e.holds.lampLow = true ∧ s1.engine.holds.isEmpty = true ∧ e.state = .held
       (¬emptied → exec .lampSupplyRecovery s = .next s1)
       ∧ (emptied → exec .lampSupplyRecovery s = .next (settle (boundary s1))))
     ∧ (e.lampTimer = false → exec .lampTimerExpiry s = .next s)
     ∧ (e.lampTimer = true →
       let holds := { e.holds with lampLow := true }
       let s1 := { s with engine :=
         if e.state = .idle then
           { e with lampTimer := false, holds, state := .held, selectionWaiting := false }
         else { e with lampTimer := false, holds } }
       let lit := e.phase = some .topBorder ∨ e.phase = some .image ∨ e.phase = some .bottomBorder
       (¬lit → exec .lampTimerExpiry s = .next (s1.raise .lampDip 0))
       ∧ ∀ id u, lit → e.current = some id → s.unit? id = some u →
         exec .lampTimerExpiry s = .next (settle ((engineSpoil s1).raise .lampDip
           (if u.spoiled = true then 0 else u.number.getD 0)))))

/-- IMAGE_DELIVERY (R87, R88): a delivery that names the unit in the engine and an outstanding line, with twenty
pixels for each millimetre of the unit's width, fills that line's buffer, and ends the first-line wait when the
line is 0; any other delivery is discarded and counted. -/
def Obligations.DeliveriesFillTheirBuffer : Prop :=
  ∀ (unit line : Nat) (pixels : List Pixel) (s : State), s.power = .on →
    let e := s.engine
    let outstanding := e.buffer1 = .requested line ∨ e.buffer2 = .requested line
    let accepted := e.current = some unit ∧ outstanding
      ∧ ∃ u, s.unit? unit = some u ∧ pixels.length = u.width.getD 0 * 20
    (¬accepted → exec (.imageDelivery unit line pixels) s = .next { s with engine := { e with
      discardedLines := min (e.discardedLines + 1) 65535 } })
    ∧ (accepted →
      let filled := if e.buffer1 = .requested line then { e with buffer1 := .complete line pixels }
        else { e with buffer2 := .complete line pixels }
      (e.firstLineTimer = false ∨ line ≠ 0 →
        exec (.imageDelivery unit line pixels) s = .next { s with engine := filled })
      ∧ (e.firstLineTimer = true → line = 0 →
        exec (.imageDelivery unit line pixels) s =
          .next (beginLine .image 0 { s with engine := { filled with firstLineTimer := false } })))

/-! ### The train and the cutter (R97, R100 to R104, R109) -/

/-- ENCODER_EVENT advances the path position one line (R97). A window covers exactly the positions from E − W to
E + W. MARK_EVENT (R100, R101): with no entry on the train, or at a position outside the head's window that is not
past it, the mark is stray; while the head's figures are pending it waits; in the window it cuts the head: one
cutter command, no blind cut outstanding, TRAIN_FULL gone and the entry routed. WINDOW_EXPIRY (R102 to R104): with
the head's E + W not reached nothing changes; with it reached the head is cut blind: a spoil report, one cutter
command, both counts up and, from the second in a row, CUTTER_FAULT. After a WINDOW_EXPIRY's cuts no head is
expired. Log entry 22: at E + W itself the mark is in the window, and a mark past the only head's E + W comes
after its expiry and is stray. Log entry 1: an expiry not due, or with no train, has no effect. -/
def Obligations.MarksAndWindowsCut : Prop :=
  (∀ s : State, s.power = .on →
    exec .encoderEvent s = .next { s with transit := { s.transit with path := s.transit.path + 1 } })
  ∧ (∀ (f : CutFigures) (p : Word32), f.window ≤ 255 →
    (f.covers p = true ↔ (p - (f.expected - BitVec.ofNat 32 f.window)).toNat ≤ 2 * f.window))
  ∧ ∀ s : State, Running s →
    let k := s.transit
    let stray := { s with transit := { k with strayMarks := min (k.strayMarks + 1) 65535 } }
    let expired := fun (e : TrainEntry) => ∃ f ∈ e.figures,
      (k.path - (f.expected + BitVec.ofNat 32 f.window)).toNat < 2 ^ 31
    (∃ t, exec .windowExpiry s = .next (settle t) ∧ headExpired t = false)
    ∧ (k.train = [] →
      exec .markEvent s = .next stray ∧ exec .windowExpiry s = .next s)
    ∧ ∀ e rest, k.train = e :: rest →
      (e.figures = none → exec .markEvent s =
        .next { s with transit := { k with waitingMarks := k.waitingMarks ++ [k.path] } })
      ∧ (¬expired e → exec .windowExpiry s = .next s)
      ∧ (∀ f, e.figures = some f → f.window ≤ 255 → f.covers k.path = false → ¬expired e →
        exec .markEvent s = .next stray)
      ∧ (∀ f, e.figures = some f → f.window ≤ 255 → f.covers k.path = true →
        (∀ e2 ∈ rest.head?, ¬expired e2) →
        exec .markEvent s = .next (settle (routeCut e.unit false (removeHold .trainFull { s with
          transit := { k with
            train := rest, cutterCommands := k.cutterCommands + 1, consecutiveBlind := 0 } }))))
      ∧ (expired e → (∀ e2 ∈ rest.head?, ¬expired e2) →
        let s1 := spoilReport e.unit { s with transit := { k with
          cutterCommands := k.cutterCommands + 1 } }
        let n := min (k.consecutiveBlind + 1) 255
        let s2 := { s1 with transit := { s1.transit with
          train := rest, consecutiveBlind := n, blindCuts := min (k.blindCuts + 1) 65535 } }
        let s3 := if 2 ≤ n then (s2.addHold .cutterFault).raise .cutterFault
          (((s1.unit? e.unit).bind PrintUnit.number).getD 0) else s2
        let blind := routeCut e.unit true (removeHold .trainFull s3)
        exec .windowExpiry s = .next (settle blind)
        ∧ (rest = [] → (∀ f ∈ e.figures, k.path ≠ f.expected + BitVec.ofNat 32 f.window) →
          exec .markEvent s = .next (settle { blind with transit := { blind.transit with
            strayMarks := min (k.strayMarks + 1) 65535 } })))

/-! ### The sorter (R113 to R126) -/

/-- The route of a cut print on clean storage (R113 to R119). A VOID, SPOILED or blind-cut print goes to the reject
tray, and a VOID one of an order in CANCELLING lowers its void count or frees the slot. A good print of no order,
or of a DAMAGED one, goes to the overflow tray unclaimed. Any other good print is counted in D and O, and goes to
its order's FILLING bin below the capacity; to the lowest FREE bin with its door closed when the order has none; or
to the overflow tray, with SPILL set. When it is the last one of an order in EXPOSING, the order is COMPLETE, its
bin READY and its price made. The unit's record returns to the pool. A pricing pass with the PRICE sheet good
makes every COMPLETE order READY with its price, and one with the sheet BAD changes nothing (R130, R131). -/
def Obligations.CutPrintsAreRouted : Prop :=
  (∀ (id : Nat) (u : PrintUnit) (blind : Bool) (s : State), CleanStorage s →
    s.unit? id = some u → u.kind ≠ .strip →
    let k := s.sorter
    let gone := fun (s : State) =>
      { s with queue := { s.queue with pool := s.queue.pool.set id none, signal := true } }
    let rejected := gone { s with sorter := { k with gate := .reject, reject := min (k.reject + 1) 65535 } }
    (u.void = false → u.spoiled = true ∨ blind = true → routeCut id blind s = rejected)
    ∧ (u.void = true → ∀ i o voids, u.slot = some i → s.order? i = some o → u.number = some o.number →
      o.state = .cancelling → o.voids = some voids →
      routeCut id blind s =
        if voids ≤ 1 then { rejected with
          orders := { s.orders with slots := s.orders.slots.set i none }
          queue := { rejected.queue with figures := s.queue.figures.set i none } }
        else { rejected with orders := { s.orders with
          slots := s.orders.slots.set i (some { o with voids := some (voids - 1) }) } })
    ∧ (u.void = false → u.spoiled = false → blind = false →
      (∀ i o, u.slot = some i → s.order? i = some o → u.number = some o.number → o.state = .damaged) →
      routeCut id blind s = gone { s with sorter := { k with
        gate := .overflow, overflow := min (k.overflow + 1) 65535
        unclaimed := min (k.unclaimed + 1) 65535 } })
    ∧ (u.void = false → u.spoiled = false → blind = false →
      ∀ i o, u.slot = some i → s.order? i = some o → u.number = some o.number → o.state ≠ .damaged →
      let last := o.state = .exposing ∧ o.delivered + 1 = o.requested
      let state := if last then OrderState.complete else o.state
      let placed := fun (o : Order) (k : Sorter) =>
        let counted := { o with state, delivered := o.delivered + 1, outstanding := o.outstanding - 1 }
        let t := { s with
          orders := { s.orders with slots := s.orders.slots.set i (some counted) }, sorter := k }
        gone (if last then priceCompleted i t else t)
      let open_ := fun (n : Nat) => (s.bin n).state = .free ∧ (s.bin n).isOpen = false
      let spilt := fun (bins : List Bin) =>
        placed { o with trayCount := o.trayCount + 1, spill := true }
          { k with gate := .overflow, overflow := min (k.overflow + 1) 65535, bins }
      (∀ n, o.bin = some n → (s.bin n).state = .filling → (s.bin n).count < k.capacity →
        let b := { s.bin n with
          count := (s.bin n).count + 1, state := if last then .ready else .filling
          opened := (s.bin n).opened && !decide last }
        routeCut id blind s =
          placed o { k with gate := .bin n, bins := k.bins.set (n - 1) b })
      ∧ (∀ n, o.bin = some n → (s.bin n).state ≠ .filling ∨ k.capacity ≤ (s.bin n).count →
        routeCut id blind s = spilt (if last then
          k.bins.set (n - 1) { s.bin n with state := .ready, opened := false } else k.bins))
      ∧ (o.bin = none → ∀ n, 1 ≤ n → n ≤ 24 → open_ n → (∀ m, 1 ≤ m → m < n → ¬open_ m) →
        let b : Bin :=
          { state := if last then .ready else .filling, number := some o.number, slot := some i
            count := 1, isOpen := (s.bin n).isOpen, opened := false }
        routeCut id blind s =
          placed { o with bin := some n } { k with gate := .bin n, bins := k.bins.set (n - 1) b })
      ∧ (o.bin = none → (∀ n, 1 ≤ n → n ≤ 24 → ¬open_ n) → routeCut id blind s = spilt k.bins)))
  ∧ ∀ s : State, CleanStorage s → s.orders.slots.length = 64 →
    let priced := fun (o : Order) =>
      if o.state = .complete then
        { o with state := .ready, price := some (priceOf s.store.price o) } else o
    (s.store.price.bad = true → pricingPass s = s)
    ∧ (s.store.price.bad = false → pricingPass s = { s with orders := { s.orders with
        slots := s.orders.slots.map (Option.map priced) } })
    ∧ ∀ i, (s.cycleRuns = true ∨ s.store.price.bad = true → priceCompleted i s = s)
      ∧ (s.cycleRuns = false → s.store.price.bad = false → ∀ o, s.order? i = some o →
        priceCompleted i s = { s with orders := { s.orders with
          slots := s.orders.slots.set i (some (priced o)) } })

/-- The bin doors (R120 to R123), on clean storage. A report at the level held is no event. An opening of a FILLING
bin marks its order DISTURBED and raises BIN_DISTURBED with the bin, and one of a READY bin sets its flag. A
closing frees a DISCARD bin; with the flag of a READY bin set it collects an order that is READY with COLLECTED
clear, frees the bin, and frees the slot too when PAID is set, and otherwise clears the flag. In every other
case only the door field changes. -/
def Obligations.DoorEventsActByBinState : Prop :=
  ∀ (n : Nat) (s : State), Running s → CleanStorage s → 1 ≤ n → n ≤ 24 → s.sorter.bins.length = 24 →
    let b := s.bin n
    let put := fun (b : Bin) =>
      { s with sorter := { s.sorter with bins := s.sorter.bins.set (n - 1) b } }
    let slot := fun (i : Nat) (o : Option Order) =>
      { s.orders with slots := s.orders.slots.set i o }
    let freed : Bin :=
      { state := .free, number := none, slot := none, count := 0, isOpen := false, opened := false }
    (b.isOpen = true → exec (.binDoorOpen n) s = .next s)
    ∧ (b.isOpen = false →
      (b.state = .free ∨ b.state = .discard →
        exec (.binDoorOpen n) s = .next (put { b with isOpen := true }))
      ∧ (b.state = .ready →
        exec (.binDoorOpen n) s = .next (put { b with isOpen := true, opened := true }))
      ∧ (b.state = .filling → ∀ i o, b.slot = some i → s.order? i = some o →
        exec (.binDoorOpen n) s = .next (({ put { b with isOpen := true } with
          orders := slot i (some (if o.state = .damaged then o else { o with disturbed := true })) } :
          State).raise .binDisturbed n)))
    ∧ (b.isOpen = false → exec (.binDoorClose n) s = .next s)
    ∧ (b.isOpen = true →
      (b.state = .free ∨ b.state = .filling ∨ (b.state = .ready ∧ b.opened = false) →
        exec (.binDoorClose n) s = .next (put { b with isOpen := false }))
      ∧ (b.state = .discard → exec (.binDoorClose n) s = .next (put freed))
      ∧ (b.state = .ready → b.opened = true → ∀ i o, b.slot = some i → s.order? i = some o →
        exec (.binDoorClose n) s = .next (
          if o.state ≠ .ready ∨ o.collected = true then put { b with isOpen := false, opened := false }
          else if o.paid = true then { put freed with
            orders := slot i none
            queue := { s.queue with figures := s.queue.figures.set i none } }
          else { put freed with
            orders := slot i (some { o with collected := true, bin := none }) })))

/-- COLLECT (R124, R125), PAY (R139, R140) and EMPTY_TRAYS (R126). COLLECT of a READY order with COLLECTED clear
sets the key and gives back the bin, FREE when its door is closed and DISCARD when it is open; PAY of a READY order
with PAID clear and at least its stored total sets that key; at the second key the slot is freed (R24). Every
other state is refused: COLLECT and PAY WRONG_STATE, PAY of a COMPLETE order NOT_PRICED, an amount above 99,999,999
BAD_VALUE, and a short amount SHORT_PAYMENT with the total and what lacks. EMPTY_TRAYS clears the counts named and
answers all three as they were. The model's choice (log entry 21): COLLECT answers a bin count of 0 for an order
with no bin, and EMPTY_TRAYS answers overflow, reject, unclaimed in that order. -/
def Obligations.CounterRequestsAnswer : Prop :=
  (∀ (h : Header) (n i : Nat) (o : Order) (s : State), Calm s → CleanStorage s → Names s n i o →
    let kept := fun (o : Order) (retired : Bool) =>
      { s with
        orders := { s.orders with
          slots := s.orders.slots.set i (if retired = true then none else some o) }
        queue := if retired = true then
          { s.queue with figures := s.queue.figures.set i none } else s.queue }
    (o.state ≠ .ready ∨ o.collected = true →
      exec (.collect h n) s = .next (s.answered h (.collect n) .wrongState []))
    ∧ (o.state = .ready → o.collected = false →
      let away := fun (b : Bin) => if b.isOpen = true
        then { b with state := .discard, number := none, slot := none, opened := false }
        else { b with state := .free, number := none, slot := none, count := 0, opened := false }
      let bins := match o.bin with
        | none => s.sorter.bins
        | some b => s.sorter.bins.set (b - 1) (away (s.bin b))
      exec (.collect h n) s = .next
        (({ kept { o with collected := true, bin := none } o.paid with
            sorter := { s.sorter with bins } } : State).answered h (.collect n) .ok
          (itemFlag o.paid ++ itemOption item8 o.bin
            ++ item8 ((o.bin.map fun b => (s.bin b).count).getD 0) ++ item16 o.trayCount)))
    ∧ ∀ amount : Nat,
      let r : Request := .pay n amount
      (99999999 < amount → exec (.pay h n amount) s = .next (s.answered h r .badValue []))
      ∧ (amount ≤ 99999999 →
        (o.state = .complete → exec (.pay h n amount) s = .next (s.answered h r .notPriced []))
        ∧ (o.state ≠ .complete → o.state ≠ .ready ∨ o.paid = true →
          exec (.pay h n amount) s = .next (s.answered h r .wrongState []))
        ∧ (o.state = .ready → o.paid = false → ∀ p : PriceRecord, o.price = some p →
          (amount < p.total → exec (.pay h n amount) s = .next
            (s.answered h r .shortPayment (item32 p.total ++ item32 (p.total - amount))))
          ∧ (p.total ≤ amount → exec (.pay h n amount) s = .next
            ((kept { o with paid := true } o.collected).answered h r .ok
              (item32 p.total ++ item32 amount ++ item32 (amount - p.total)
                ++ itemFlag o.collected))))))
  ∧ ∀ (h : Header) (selection : Nat) (s : State), s.accepts = true →
    let k := s.sorter
    (2 < selection → exec (.emptyTrays h selection) s =
      .next (s.answered h (.emptyTrays selection) .badValue []))
    ∧ (selection ≤ 2 → exec (.emptyTrays h selection) s = .next (({ s with sorter := { k with
        overflow := if selection = 1 then k.overflow else 0
        unclaimed := if selection = 1 then k.unclaimed else 0
        reject := if selection = 0 then k.reject else 0 } } : State).answered h
          (.emptyTrays selection) .ok (item16 k.overflow ++ item16 k.reject ++ item16 k.unclaimed)))

/-! ### Pricing (R132 to R135) -/

/-- The price of an order from its lines, billing class and LATE flag and the PRICE sheet, by R132's tiers, R133's
line amounts, R134's percentages and R135's total. A PRICE sheet in its ranges and lines of at most 99 prints each,
400 in all, give figures within the maxima those rules name; the largest line amount and subtotal are reached. The
late discount never exceeds the subtotal, and is the subtotal at 100 percent. -/
def Obligations.PriceIsFormedByTheRules : Prop :=
  (∀ (price : Sheet) (o : Order),
    let count := fun (size : Nat) => totalQuantity (o.lines.filter fun l => l.size == size)
    let low := fun (i : Nat) => price.value i % 65536
    let high := fun (i : Nat) => price.value i / 65536
    let unit := fun (size : Nat) =>
      if high (3 * size + 1) ≠ 0 ∧ high (3 * size + 1) ≤ count size then low (3 * size + 2)
      else if high (3 * size) ≠ 0 ∧ high (3 * size) ≤ count size then low (3 * size + 1)
      else low (3 * size)
    let amount := fun (l : Line) => l.quantity * (unit l.size + price.value (48 + l.surface))
    let p := priceOf price o
    let figure := p.subtotal + p.rushAdd - p.lateDiscount
    (∀ l, lineAmount price o.lines l = amount l)
    ∧ p.subtotal = (o.lines.map amount).sum
    ∧ p.rushAdd = (if o.cls = .rush then (p.subtotal * price.value 52 + 50) / 100 else 0)
    ∧ p.lateDiscount = (if o.late = true then (p.subtotal * price.value 53 + 50) / 100 else 0)
    ∧ p.total = min (if figure < price.value 54 then price.value 54 else figure) 9999999
    ∧ p.total ≤ 9999999 ∧ p.writeCount = price.writes
    ∧ ((∀ surface ≤ 3, price.value (48 + surface) ≤ 999) → price.value 52 ≤ 100 →
      price.value 53 ≤ 100 → (∀ l ∈ o.lines, l.quantity ≤ 99 ∧ l.surface ≤ 3) →
      totalQuantity o.lines ≤ 400 →
      (∀ l ∈ o.lines, amount l ≤ 6586866) ∧ p.subtotal ≤ 26613600 ∧ p.rushAdd ≤ 26613600
      ∧ p.lateDiscount ≤ p.subtotal ∧ figure ≤ 53227200)
    ∧ (o.late = true → price.value 53 = 100 → p.lateDiscount = p.subtotal)
    ∧ (price.value 54 = 0 → p.subtotal = 0 ∨ (o.cls = .standard ∧ o.late = true ∧ price.value 53 = 100) →
      p.total = 0)
    ∧ ∀ o2 : Order, o2.cls = o.cls → o2.late = o.late →
      (o2.lines.map fun l => (l.size, l.surface, l.quantity)) =
        (o.lines.map fun l => (l.size, l.surface, l.quantity)) →
      priceOf price o2 = p)
  ∧ (∃ price lines, (∀ i ≤ 3, price.value (48 + i) ≤ 999) ∧ (∀ l ∈ lines, l.quantity ≤ 99)
    ∧ totalQuantity lines = 400 ∧ (∃ l ∈ lines, lineAmount price lines l = 6586866)
    ∧ subtotal price lines = 26613600)

/-! ### Calibration (R146 to R152) -/

/-- START_CAL makes a strip for its surface at the tail of the strip section, in the lowest FREE unit record, with
the strip record OUT, and is refused by R147's tests in their order. WAIVE_CAL clears the surface's due flag and
counter and answers both as they were, and signals the queue when the flag was set (R146). CONVERSION_END records
its value and moves the filter on; the sixth returns the strip's record, and the result is made at once unless a
write cycle runs (R150, R151); with no reading running it has no effect (log entry 1). START_CAL's refusals are made
at once during a write cycle (log entry 15). A strip's hand-over begins the conversions unless the cut is blind or the
calibration already abandoned (R149). -/
def Obligations.CalibrationRunsItsCourse : Prop :=
  (∀ (h : Header) (surface : Nat) (s : State), Calm s →
    let start : Request := .startCal surface
    let about := ∃ id ∈ s.queue.ids ++ s.inFlight, ∃ u, s.unit? id = some u ∧ u.kind = .strip
    (3 < surface →
      exec (.startCal h surface) s = .next (s.answered h start .badValue [])
      ∧ exec (.waiveCal h surface) s = .next (s.answered h (.waiveCal surface) .badValue []))
    ∧ (surface ≤ 3 →
      (s.store.calibration.bad = true →
        exec (.startCal h surface) s = .next (s.answered h start .sheetBad []))
      ∧ (s.store.calibration.bad = false → s.cal.strip ≠ .none ∨ about →
        exec (.startCal h surface) s = .next (s.answered h start .wrongState []))
      ∧ (s.store.calibration.bad = false → s.cal.strip = .none → ¬about →
        (504 < s.unitsInUse →
          exec (.startCal h surface) s = .next (s.answered h start .full []))
        ∧ (s.unitsInUse ≤ 504 → s.cycleRuns = false → ∀ id < s.queue.pool.length,
          s.unit? id = none → (∀ k < id, (s.unit? k).isSome = true) →
          let lead := if s.store.general.bad = true then 40 else s.store.general.value 0
          let mark := if s.store.general.bad = true then 8 else s.store.general.value 1
          let strip : PrintUnit :=
            { kind := .strip, slot := none, number := none, position := none, copy := none
              lineage := 0, surface, width := none, lead, print := 800, border := 0, mark
              place := .queue, spoiled := false, void := false, exposure := none }
          exec (.startCal h surface) s = .next (settle (({ s with
            queue := { s.queue with
              pool := s.queue.pool.set id (some strip), strip := s.queue.strip ++ [id]
              signal := true }
            cal := { s.cal with strip := .out surface id false } } : State).answered h start .ok
              (item16 id ++ item16 (lead + 800 + mark))))))
      ∧ (let r := s.surface surface
        exec (.waiveCal h surface) s = .next (settle (({ s with
          cal := { s.cal with
            surfaces := s.cal.surfaces.set surface { r with due := false, counter := 0 } }
          queue := { s.queue with signal := r.due } } : State).answered h (.waiveCal surface) .ok
            (itemFlag r.due ++ item16 r.counter))))))
  ∧ (∀ (value : Nat) (s : State), Running s → value ≤ 1023 →
    ((∀ u id k values, s.cal.strip ≠ .reading u id k values) →
      exec (.conversionEnd value) s = .next s)
    ∧ ∀ u id k values, s.cal.strip = .reading u id k values →
      let all := values ++ [value]
      (1 ≤ k → k < 6 → exec (.conversionEnd value) s = .next { s with cal := { s.cal with
        strip := .reading u id (k + 1) all
        filter := [Filter.baseRed, .baseGreen, .baseBlue, .greyRed, .greyGreen, .greyBlue].getD k
          .noReading } })
      ∧ (k = 6 →
        let t := { s with
          queue := { s.queue with pool := s.queue.pool.set id none, signal := true }
          cal := { s.cal with strip := .settling u all, filter := .noReading } }
        exec (.conversionEnd value) s =
          .next (settle (if s.cycleRuns = true then t else takeResult u all t))))
  ∧ ∀ (id surface : Nat) (u : PrintUnit) (abandoned blind : Bool) (s : State),
    s.unit? id = some u → u.kind = .strip → s.cal.strip = .out surface id abandoned →
    let cut := { s with sorter := { s.sorter with
      gate := .reject, reject := min (s.sorter.reject + 1) 65535 } }
    let last : LastResult :=
      { outcome := .abandoned, cause := some (if blind = true then .blindCut else .spoiled)
        time := { minute := s.clock.minute, second := s.clock.second, isSet := s.clock.isSet }
        readings := none, densities := none, errors := none, steps := none, before := none
        after := none, clamps := { r := false, g := false, b := false } }
    routeCut id blind s =
      if blind = false ∧ abandoned = false then
        { cut with cal := { s.cal with strip := .reading surface id 1 [], filter := .baseRed } }
      else { cut with
        queue := { s.queue with pool := s.queue.pool.set id none, signal := true }
        cal := { s.cal with
          strip := .none
          surfaces := s.cal.surfaces.set surface { s.surface surface with last := some last } } }

/-- The result of a strip (R151, R152). Each density is the difference of its readings by the gain, rounded half up
and limited to 400, and 0 when the grey reading is not below the base one. With an error above the tolerance the
calibration fails: CAL_FAIL with the surface, and no balance and no due state changes. Otherwise it is accepted:
the counter and the due flag are cleared, a channel within the dead band keeps its balance, any other loses the
rounded quotient of its error, within −40..+40 and marked when that limit acts, and one store write of the three
balances begins when any differs. -/
def Obligations.ResultMovesTheBalances : Prop :=
  ∀ (u : Nat) (values : List Nat) (s : State),
    let cal := s.store.calibration
    let density := fun (c : Nat) =>
      let base := values.getD c 0
      let grey := values.getD (c + 3) 0
      if base ≤ grey then 0 else min 400 ((2 * ((base - grey) * cal.value 53) + 256) / 512)
    let error := fun (c : Nat) => (density c : Int) - cal.value (32 + 3 * u + c)
    let steps := fun (c : Nat) =>
      if (error c).natAbs ≤ cal.value 56 then (0 : Int)
      else
        let rounded : Nat := (2 * (error c).natAbs + cal.value 54) / (2 * cal.value 54)
        if error c < 0 then -(rounded : Int) else rounded
    let before := fun (c : Nat) => (cal.entry (16 + 3 * u + c)).toInt
    let after := fun (c : Nat) => max (-40) (min 40 (before c - steps c))
    let three := fun (f : Nat → Int) => ({ r := f 0, g := f 1, b := f 2 } : Channels)
    let acted := fun (c : Nat) => decide (after c ≠ before c - steps c)
    let time : ShopTime := { minute := s.clock.minute, second := s.clock.second, isSet := s.clock.isSet }
    let was := s.surface u
    let beyond := ∃ c < 3, cal.value 55 < (error c).natAbs
    let ended := fun (r : SurfaceCal) =>
      { s.cal with strip := StripRecord.none, surfaces := s.cal.surfaces.set u r }
    (∀ c < 3, density c ≤ 400)
    ∧ (beyond →
      let last : LastResult :=
        { outcome := .failed, cause := none, time, readings := some values
          densities := some (three fun c => density c), errors := some (three error)
          steps := none, before := none, after := none, clamps := { r := false, g := false, b := false } }
      takeResult u values s =
        ({ s with cal := ended { was with last := some last } } : State).raise .calFail u)
    ∧ (¬beyond →
      let last : LastResult :=
        { outcome := .accepted, cause := none, time, readings := some values
          densities := some (three fun c => density c), errors := some (three error)
          steps := some (three steps), before := some (three before), after := some (three after)
          clamps := { r := acted 0, g := acted 1, b := acted 2 } }
      let accepted := { s with
        queue := { s.queue with signal := s.queue.signal || was.due }
        cal := ended { was with counter := 0, due := false, last := some last } }
      ((∀ c < 3, after c = before c) → takeResult u values s = accepted)
      ∧ ((∃ c < 3, after c ≠ before c) →
        takeResult u values s = { accepted with store := (storeWrite .calibration (16 + 3 * u)
          [BitVec.ofInt 32 (after 0), BitVec.ofInt 32 (after 1), BitVec.ofInt 32 (after 2)] s).2.store }))

/-! ### Write cycles and the work that waits on them (R183) -/

/-- WRITE_CYCLE_END ends the cycle: its sheet, when BAD with all four pages written, becomes good, and every other
value of the store stays. The copies of the correction threshold and the bin capacity follow the GENERAL sheet when it
was the sheet written, and stay otherwise. SHEET_BAD goes when SIZE or CALIBRATION was written and both are good
(R72). The due comparison is made for every surface after a write of CALIBRATION and otherwise for those that waited:
a surface not due, with the sheet good, an interval above 0 and a counter at or above it, is due, with CAL_DUE raised
in ascending surface (R144, log entry 37). A write of CALIBRATION or GENERAL, or a surface newly due, signals the
engine (R48, R183). Nothing that waited on the cycle inside a block is owed afterwards: no draft comparison, no held
trial, no pending figures, no waiting mark; and with the PRICE sheet good and clean storage no order stays in
COMPLETE. The link, the clock and the power stay. With no cycle running it has no effect (log entry 1). The order of
what waited is log entry 14. -/
def Obligations.CycleEndDoesWhatWaited : Prop :=
  ∀ s : State, Running s →
    (s.store.cycle = none → exec .writeCycleEnd s = .next s)
    ∧ ∀ c : WriteCycle, s.store.cycle = some c →
      let sheet := s.store.sheet c.sheet
      let good := { sheet with bad := sheet.bad && !sheet.pages.all id }
      let u := endCycle s
      let t := settle u
      exec .writeCycleEnd s = .next t
      ∧ t.store = { s.store.setSheet c.sheet good with cycle := none }
      ∧ (c.sheet = .general →
          t.memory.threshold = (if t.store.general.bad = true then 16 else t.store.general.value 9)
          ∧ t.sorter.capacity = (if t.store.general.bad = true then 50 else t.store.general.value 4))
      ∧ (c.sheet ≠ .general → t.memory.threshold = s.memory.threshold
          ∧ t.sorter.capacity = s.sorter.capacity)
      ∧ t.engine.holds.sheetBad =
          (s.engine.holds.sheetBad && !((c.sheet == .size || c.sheet == .calibration)
            && !t.store.size.bad && !t.store.calibration.bad))
      ∧ (c.sheet = .calibration ∨ c.sheet = .general → u.queue.signal = true)
      ∧ (s.cal.surfaces.length = 4 →
          let found := fun (k : Nat) =>
            let n := t.store.calibration.value (44 + k)
            (c.sheet == .calibration || (s.surface k).checkWaiting) && !(s.surface k).due
              && !t.store.calibration.bad && n != 0 && decide (n ≤ (s.surface k).counter)
          let new := (List.range 4).filter found
          (∀ k < 4, (t.surface k).due = ((s.surface k).due || found k)
            ∧ (t.surface k).counter = (s.surface k).counter ∧ (t.surface k).checkWaiting = false)
          ∧ t.notices.kinds[8]? = (s.notices.kinds[8]?).map (fun n : Notice => new.foldl (fun n k =>
              { n with pending := true, count := min (n.count + 1) 255, detail := some k }) n)
          ∧ (new ≠ [] → u.queue.signal = true))
      ∧ t.orders.draftCheckDue = false ∧ t.orders.trialDue = false ∧ t.queue.signal = false
      ∧ (∀ e ∈ t.transit.train, e.figures.isSome = true) ∧ t.transit.waitingMarks = []
      ∧ (CleanStorage s → t.store.price.bad = false → s.orders.slots.length = 64 →
          ∀ i o, t.order? i = some o → o.state ≠ .complete)
      ∧ t.link = s.link ∧ t.clock = s.clock ∧ t.power = s.power

/-- What waits on a write cycle, and how WAITING_READ_PROCEEDS makes it (R55, R57, R71, R84, R151, R162, log entry
14). A request whose block reads a sheet leaves the link WORKING with it during a cycle: ADD_LINE, CHANGE_LINE and
SUBMIT whole, with a DRAFT's idle seconds set to 0 (R7, R11, R12); READ_TRAIN, READ_CAL, READ_QUEUE, READ_LINK,
LINK_SETUP with an item absent and START_CAL, once their other tests pass (R52, R110, R147, R154, R165, R172, log
entry 15). The rights test of another station's request waits too, but a store request goes to the store, which
answers STORE_BUSY (R170). A waiting request proceeds as its row on an idle link, or as its frame taken anew where
its rights test waited; a line edit or SUBMIT leaves the idle seconds as they stand, is answered DAMAGED when its
first access found the order so, and READ_LINK reports the receive queue's length when it was taken. A waiting
selection is made as a boundary's; the switch time is read, the timer started and the actuator driven to the other
magazine; a strip that is SETTLING takes its result. A selection that waits in RESETTING is never answered: the
reset abandons it. Nothing proceeds while a cycle runs, and nothing that does not wait does (log entry 1). The items
READ_TRAIN answers are those of its row (`ReadsChangeNothing`), in the layout of log entry 21. -/
def Obligations.WaitingWorkProceeds : Prop :=
  (∀ (h : Header) (s : State), Calm s → CleanStorage s → s.cycleRuns = true →
    let works := fun (c : Instr) (r : Request) (damaged : Bool) (s1 : State) =>
      exec c s = .next { s1 with link := { s.link with
        phase := .working { header := h, broadcast := false, request := r
                            queued := s.link.queue.length, stage := .owner damaged } } }
    let about := ∃ id ∈ s.queue.ids ++ s.inFlight, ∃ u, s.unit? id = some u ∧ u.kind = .strip
    (∀ (n position : Nat) (item : LineItem) (c : Instr) (r : Request),
      (c, r) ∈ [(Instr.addLine h n item, Request.addLine n item),
        (.changeLine h n position item, .changeLine n position item), (.submit h n, .submit n)] →
      (s.findOrder n = none → works c r false s)
      ∧ ∀ i o, s.findOrder n = some i → s.order? i = some o →
        (o.state = .damaged → works c r true s)
        ∧ (o.state ≠ .damaged → works c r false { s with orders := { s.orders with
            slots := s.orders.slots.set i (some
              (if o.state = .draft then { o with idle := 0 } else o)) } }))
    ∧ (∀ place, 1 ≤ place → place ≤ 64 → works (.readTrain h place) (.readTrain place) false s)
    ∧ (∀ surface ≤ 3, works (.readCal h surface) (.readCal surface) false s)
    ∧ (∀ start, 1 ≤ start → start ≤ 512 →
      works (.readQueue h start none) (.readQueue start none) false s
      ∧ ∀ n i o, Names s n i o →
        works (.readQueue h start (some n)) (.readQueue start (some n)) false s)
    ∧ works (.readLink h) .readLink false s
    ∧ (∀ address lab : Option Nat, address = none ∨ lab = none → (∀ a ∈ address, 1 ≤ a ∧ a ≤ 254) →
      (∀ l ∈ lab, 1 ≤ l ∧ l ≤ 31) → works (.linkSetup h address lab) (.linkSetup address lab) false s)
    ∧ ∀ surface ≤ 3, s.store.calibration.bad = false → s.cal.strip = .none → ¬about →
      s.unitsInUse ≤ 504 → works (.startCal h surface) (.startCal surface) false s)
  ∧ (∀ (f : Frame) (rest : List Frame) (r : Request) (s : State), Calm s → s.cycleRuns = true →
    s.link.queue = f :: rest → (f.broadcast = true → f.code = 0x0A) → s.link.setUp = true →
    s.link.lab ≠ some f.source → isRequestCode f.code = true → readRequest f.code f.body = some r →
    let h : Header := { source := f.source, tag := f.tag }
    let taken := { s with link := { s.link with queue := rest } }
    (namedSheet r = none → exec .requestTaken s = .next { s with link := { s.link with
      queue := rest
      phase := .working { header := h, broadcast := f.broadcast, request := r
                          queued := rest.length, stage := .rights } } })
    ∧ (∀ sheet start count, r = .storeRead sheet start count → sheet ≤ 4 → start ≤ 63 → 1 ≤ count →
      count ≤ 16 → exec .requestTaken s = .next (taken.answered h r .storeBusy []))
    ∧ ∀ sheet start values, r = .storeWrite sheet start values → sheet ≤ 4 → start ≤ 63 →
      1 ≤ values.length → values.length ≤ 16 →
      exec .requestTaken s = .next (taken.answered h r .storeBusy []))
  ∧ (∀ (h : Header) (r : Request) (queued : Nat) (damaged : Bool) (s : State), Running s →
    s.cycleRuns = false →
    s.link.phase = .working { header := h, broadcast := false, request := r, queued
                              stage := .owner damaged } →
    let goes := exec (.waitingReadProceeds .request) s
    let idle := { s with link := { s.link with phase := .idle } }
    (damaged = true → goes = .next (s.answered h r .damaged []))
    ∧ (damaged = false →
      (∀ place, r = .readTrain place → goes = exec (.readTrain h place) idle
        ∧ (1 ≤ place → place ≤ 64 → goes = .next (s.answered h r .ok (trainItems s place))))
      ∧ (∀ surface, r = .readCal surface → goes = exec (.readCal h surface) idle)
      ∧ (∀ start number, r = .readQueue start number → goes = exec (.readQueue h start number) idle)
      ∧ (∀ address lab, r = .linkSetup address lab → goes = exec (.linkSetup h address lab) idle)
      ∧ (∀ surface, r = .startCal surface → goes = exec (.startCal h surface) idle)
      ∧ (r = .readLink → goes = .next (s.answered h r .ok
        (itemFlag s.link.setUp ++ item8 s.link.address ++ itemOption item8 s.link.lab
          ++ item8 (if s.store.general.bad = true then 64 else s.store.general.value 10)
          ++ item8 (if s.store.general.bad = true then 1 else s.store.general.value 11)
          ++ item8 queued ++ item16 s.link.badForm ++ item16 s.link.badCheck
          ++ item16 s.link.badSource ++ item16 s.link.overrun ++ itemFlag s.link.violation.isSome
          ++ item8 s.link.violationOverflow)))
      ∧ (CleanStorage s → ∀ n : Nat,
        (∀ i o, s.findOrder n = some i → s.order? i = some o → o.state = .draft → o.idle = 0) →
        (∀ item, r = .addLine n item → goes = exec (.addLine h n item) idle)
        ∧ (∀ position item, r = .changeLine n position item →
          goes = exec (.changeLine h n position item) idle)
        ∧ (r = .submit n → goes = exec (.submit h n) idle))
      ∧ (CleanStorage s → ∀ n i o, Names s n i o → o.state = .draft → s.store.size.bad = true →
        (∃ item, r = .addLine n item ∨ ∃ position, r = .changeLine n position item)
          ∨ (r = .submit n ∧ o.lines ≠ []) →
        goes = .next (s.answered h r .sheetBad []))))
  ∧ (∀ (f : Frame) (r : Request) (s : State), Running s → s.cycleRuns = false → s.link.setUp = true →
    isRequestCode f.code = true → readRequest f.code f.body = some r →
    (f.broadcast = true → f.code = 0x0A) →
    s.link.phase = .working { header := { source := f.source, tag := f.tag }, broadcast := f.broadcast
                              request := r, queued := s.link.queue.length, stage := .rights } →
    exec (.waitingReadProceeds .request) s = exec .requestTaken
      { s with link := { s.link with phase := .idle, queue := f :: s.link.queue } })
  ∧ ∀ s : State, Running s →
    (∀ work, s.cycleRuns = true → exec (.waitingReadProceeds work) s = .next s)
    ∧ (s.cycleRuns = false →
      (s.engine.selectionWaiting = true → s.engine.state = .idle → s.engine.holds.isEmpty = true →
        s.link.phase ≠ .resetting →
        exec (.waitingReadProceeds .selection) s = .next (settle (boundary s)))
      ∧ (s.link.phase = .resetting → exec (.waitingReadProceeds .selection) s = .next s)
      ∧ (s.engine.switchWaiting = true →
        exec (.waitingReadProceeds .switchTime) s = .next { s with engine := { s.engine with
          switchWaiting := false, actuator := s.engine.active.other
          switchTimer := some
            (if s.store.general.bad = true then 20 else s.store.general.value 7) } })
      ∧ (∀ u values, s.cal.strip = .settling u values →
        exec (.waitingReadProceeds .calibrationResult) s = .next (settle (takeResult u values s)))
      ∧ (s.link.phase = .idle → exec (.waitingReadProceeds .request) s = .next s)
      ∧ (s.engine.selectionWaiting = false → exec (.waitingReadProceeds .selection) s = .next s)
      ∧ (s.engine.awaitingSettings = false → exec (.waitingReadProceeds .unitStart) s = .next s)
      ∧ (s.engine.switchWaiting = false → exec (.waitingReadProceeds .switchTime) s = .next s)
      ∧ (s.cal.strip = .none → exec (.waitingReadProceeds .calibrationResult) s = .next s))

/-! ### Starts, resets and the loss of power (R183 to R185) -/

/-- COLD_START with no write cycle cut short: every block at its cold-start values with the magazines, the lamp and
the doors as sensed (R31, R53, R94, R96, R128, R155, R173, R185). A sheet whose check agrees is good and otherwise
kept; one whose check disagrees, as a cut write cycle may leave it, is BAD with its page flags clear, and
STORE_SHEET_BAD is raised with it, in the order of the sheets (R184). SIZE or CALIBRATION BAD holds the engine by
SHEET_BAD beside LAB_HALT (R72, R94). The copies of the correction threshold and the bin capacity are read from the
GENERAL sheet, or are 16 and 50 when it is BAD. What the model counts of its outputs and free values goes on counting
(log entry 13), a start is taken from any state (log entry 12), and code lines are read modulo 8 and 4 (log entry 23).
-/
def Obligations.ColdStartSetsEveryBlock : Prop :=
  ∀ (x : Sensed) (s : State), s.store.cycle = none →
    let bad := fun (name : SheetName) => !checkAgrees (s.store.sheet name).entries
    let found := [SheetName.size, .price, .calibration, .stations, .general].filter bad
    let magazine := fun (m : SensedMagazine) =>
      if m.present = true then
        ({ present := true, surface := some (m.surfaceCode % 4), remaining := 0, paperEnd := m.paperEnd
           width := [none, some 89, some 102, some 127, some 152, some 203, some 254,
             some 305].getD (m.widthCode % 8) none } : MagazineRecord)
      else { present := false, width := none, surface := none, remaining := 0, paperEnd := false }
    let r := State.reset
    ∃ store : SettingsStore,
      store.cycle = none
      ∧ (∀ name, store.sheet name = { s.store.sheet name with
          bad := bad name
          pages := if bad name = true then [false, false, false, false] else (s.store.sheet name).pages })
      ∧ exec (.coldStart x) s = .next { r with
        store, draws := s.draws, pending := s.pending
        notices := (found.foldl (fun t name => t.raise .storeSheetBad name.code) r).notices
        memory := { upsets := [], corrections := 0
                    threshold := if bad .general = true then 16 else s.store.general.value 9 }
        engine := { r.engine with
          holds := { r.engine.holds with sheetBad := bad .size || bad .calibration }
          magA := magazine x.magA, magB := magazine x.magB, lampIsLow := x.lampLow
          lampTimer := x.lampLow, advances := s.engine.advances }
        transit := { r.transit with cutterCommands := s.transit.cutterCommands }
        sorter := { r.sorter with
          capacity := if bad .general = true then 50 else s.store.general.value 4
          bins := (List.range 24).map fun n => { state := .free, number := none, slot := none
                                                 count := 0, isOpen := x.doorsOpen.getD n false
                                                 opened := false } } }

/-- RETAINED_START and WARM_RESET_EFFECT on clean storage, with no write cycle cut short. Both leave the engine HELD
with LAB_HALT, and SHEET_BAD while SIZE or CALIBRATION is BAD, with no unit, magazine change, buffered line or wait,
the actuator at the active magazine, the lamp timer running exactly when the supply is low, and the magazines as
sensed (R72, R94, R95), the train empty, no strip anywhere, the gate at REJECT and the notices cleared, and keep the
number counter and the due counters and flags (R94 to R96, R128, R155). The start returns the clock, the link and the
enables to their cold-start values, senses the doors, keeps the length only of a magazine sensed present, sets the
drafts' idle seconds to 0, and checks the sheets: one that fails is BAD with its page flags clear and STORE_SHEET_BAD
raised, and with GENERAL BAD the copies are 16 and 50 (R184); the reset keeps these, and frees the link (R166, R173,
R185). Both are the stop of the path, then the pricing pass and the held trial (R13, R130). The stop (R31, R40, R54,
R55): a queued strip goes and every unit in flight leaves; each print not VOID, not SPOILED and of a sound order is
replaced by a reprint of its lineage, these at the heads of their sections in exposure order, and counts one spoil;
each VOID unit lowers its CANCELLING order's void count, which at 0 frees the slot (R22); a calibration is abandoned,
cause RESET; all else stays. With every sheet good, a start's walk that finds two wrong bits in a live slot, or in a
FREE slot's state word, goes on as with that slot DAMAGED, and one wrong bit is corrected and counted (R177, R178,
R185). Log entries: a reset not due has no effect (1), a start is taken from any state (12), the cutter-command count
is kept (13), an absent magazine's paper-end flag is clear, its codes count modulo 4 and 8 and the lamp level at a
reset is the one held (23), wrong bits are RETAINED_START's operand (31), a strip's record being read returns last
(35). -/
def Obligations.StartsAndResetsStopThePath : Prop :=
  let magazine := fun (m : SensedMagazine) (remaining : Nat) =>
    ({ present := m.present, paperEnd := m.present && m.paperEnd, remaining
       surface := if m.present = true then some (m.surfaceCode % 4) else none
       width := if m.present = true then [none, some 89, some 102, some 127, some 152, some 203, some 254,
         some 305].getD (m.widthCode % 8) none else none } : MagazineRecord)
  let stopped := fun (e : Engine) (lampIsLow sheetBad : Bool) (magA magB : MagazineRecord) => { e with
    state := .held, phase := none, current := none, handle := 0, line := 0, selectPending := false
    holds := { labHalt := true, cutterFault := false, lampLow := false, trainFull := false, sheetBad }
    switchTimer := none, buffer1 := .empty, buffer2 := .empty, firstLineTimer := false
    lampTimer := lampIsLow, lampIsLow, magA, magB, awaitingSettings := false, selectionWaiting := false
    switchWaiting := false, head := .unlit, actuator := e.active }
  (∀ (x : Sensed) (s : State), CleanStorage s → s.store.cycle = none →
    let bad := fun (name : SheetName) => !checkAgrees (s.store.sheet name).entries
    let found := [SheetName.size, .price, .calibration, .stations, .general].filter bad
    ∃ store : SettingsStore, store.cycle = none
    ∧ (∀ name, store.sheet name = { s.store.sheet name with
        bad := bad name
        pages := if bad name = true then [false, false, false, false] else (s.store.sheet name).pages })
    ∧ let s1 := { s with
        power := .on, link := State.reset.link, clock := State.reset.clock, store
        notices := (found.foldl (fun t name => t.raise .storeSheetBad name.code) State.reset).notices
        memory := { s.memory with threshold := if bad .general = true then 16 else s.store.general.value 9 }
        orders := { s.orders with draftCheckDue := false, slots := s.orders.slots.map (Option.map fun o =>
          if o.state = .draft then { o with idle := 0 } else o) }
        sorter := { s.sorter with
          gate := .reject
          capacity := if bad .general = true then 50 else s.store.general.value 4
          bins := s.sorter.bins.zipIdx.map fun (b, n) => { b with isOpen := x.doorsOpen.getD n false } }
        cal := { s.cal with surfaces := s.cal.surfaces.map fun r => { r with checkWaiting := false } } }
      ∃ t : State, exec (.retainedStart x []) s = .next t
        ∧ t = endStart { stopPath s1 with engine := t.engine, transit := t.transit }
        ∧ t.engine = { stopped s.engine x.lampLow (bad .size || bad .calibration)
            (magazine x.magA (if x.magA.present = true then s.engine.magA.remaining else 0))
            (magazine x.magB (if x.magB.present = true then s.engine.magB.remaining else 0)) with
            discardedLines := 0 }
        ∧ t.power = .on ∧ t.clock = s1.clock ∧ t.link = s1.link ∧ t.notices = s1.notices
        ∧ t.store = store ∧ t.sorter = s1.sorter ∧ t.orders.nextNumber = s.orders.nextNumber
        ∧ t.transit = { State.reset.transit with cutterCommands := s.transit.cutterCommands }
        ∧ t.queue.strip = [] ∧ t.queue.runCount = 0 ∧ t.cal.strip = .none ∧ t.cal.filter = .noReading
        ∧ ∀ u, (t.surface u).counter = (s.surface u).counter ∧ (t.surface u).due = (s.surface u).due)
  ∧ (∀ (a b : SensedMagazine) (s : State),
    (s.power ≠ .on ∨ s.link.phase ≠ .resetting ∨ s.cycleRuns = true →
      exec (.warmResetEffect a b) s = .next s)
    ∧ (s.power = .on → s.link.phase = .resetting → s.cycleRuns = false → CleanStorage s →
      let s1 := { s with
        link := { s.link with
          inFrame := false, queue := [], phase := .idle, violation := none, violationOverflow := 0 }
        notices := { kinds := s.notices.kinds.map (fun (n : Notice) =>
          { n with pending := false, count := 0, detail := none }) }
        sorter := { s.sorter with gate := .reject } }
      ∃ t : State, exec (.warmResetEffect a b) s = .next t
        ∧ t = endStart { stopPath s1 with engine := t.engine }
        ∧ t.engine = stopped s.engine s.engine.lampIsLow (s.store.size.bad || s.store.calibration.bad)
            (magazine a s.engine.magA.remaining) (magazine b s.engine.magB.remaining)
        ∧ t.power = .on ∧ t.clock = s.clock ∧ t.store = s.store ∧ t.link = s1.link
        ∧ t.notices = s1.notices ∧ t.sorter = s1.sorter ∧ t.orders.nextNumber = s.orders.nextNumber
        ∧ t.transit = { s.transit with train := [], consecutiveBlind := 0, waitingMarks := [] }
        ∧ t.queue.strip = [] ∧ t.queue.runCount = 0 ∧ t.cal.strip = .none ∧ t.cal.filter = .noReading
        ∧ ∀ u, (t.surface u).counter = (s.surface u).counter ∧ (t.surface u).due = (s.surface u).due))
  ∧ (∀ s : State, s.engine.state ≠ .idle →
    let priced := pricingPass s
    let t := runTrials { priced with orders := { priced.orders with trialDue := true } }
    endStart s = { t with queue := { t.queue with signal := false } })
  ∧ (∀ s : State, CleanStorage s →
    let flight := s.transit.train.map TrainEntry.unit ++ s.engine.current.toList
    let surface := match s.cal.strip with
      | .none => none
      | .out u _ _ => some u
      | .reading u _ _ _ => some u
      | .settling u _ => some u
    let read := match s.cal.strip with
      | .reading _ id _ _ => some id
      | _ => none
    let order := fun (u : PrintUnit) =>
      u.slot.bind fun i => (s.order? i).filter fun o => u.number == some o.number
    let reprinted := fun (cls : OrderClass) (id : Nat) => (s.unit? id).any fun u =>
      u.kind != .strip && !u.void && !u.spoiled
        && (order u).any fun o => o.state != .damaged && o.queueClass == cls
    (flight ++ read.toList).Nodup →
    (∀ id ∈ flight ++ read.toList, id ∉ s.queue.ids ∧ (s.unit? id).isSome = true) →
    (∃ free < s.queue.pool.length, s.unit? free = none) →
    (∀ id ∈ flight, ∀ u o, s.unit? id = some u → order u = some o → o.state = .cancelling →
      u.void = true) →
    let t := stopPath s
    let last : LastResult :=
      { outcome := .abandoned, cause := some .reset, readings := none, densities := none
        time := { minute := s.clock.minute, second := s.clock.second, isSet := s.clock.isSet }
        errors := none, steps := none, before := none, after := none
        clamps := { r := false, g := false, b := false } }
    let replaces := fun (cls : OrderClass) (made : List Nat) =>
      made.map t.unit? = (flight.filter (reprinted cls)).map fun id => (s.unit? id).map fun u =>
        { u with kind := .reprint, place := .queue, exposure := none }
    ∃ rush standard : List Nat,
      (rush ++ standard).Nodup ∧ replaces .rush rush ∧ replaces .standard standard
      ∧ (∀ id ∈ rush ++ standard, s.unit? id = none ∨ id ∈ flight ∨ id ∈ s.queue.strip)
      ∧ (∀ id, id ∉ rush ++ standard → t.unit? id =
          if id ∈ flight ∨ id ∈ s.queue.strip ∨ read = some id then none else s.unit? id)
      ∧ (∀ i, t.order? i = (s.order? i).bind fun o =>
          let its := fun (void : Bool) => flight.countP fun id => (s.unit? id).any fun u =>
            u.kind != .strip && u.void == void && (void || !u.spoiled) && u.isOf i o.number
          if o.state = .damaged then some o
          else if o.state = .cancelling then
            if its true = 0 then some o
            else if o.voids.getD 0 ≤ its true then none
            else some { o with voids := some (o.voids.getD 0 - its true) }
          else some { o with spoils := Nat.repeat (fun n => min (n + 1) 65535) (its false) o.spoils })
      ∧ (∀ i, t.figures? i =
          if (s.order? i).isSome = true ∧ t.order? i = none then none else s.figures? i)
      ∧ t = { s with
        orders := { s.orders with slots := t.orders.slots }
        queue := { s.queue with
          pool := t.queue.pool, figures := t.queue.figures, strip := [], runCount := 0, heldCause := none
          rush := rush ++ s.queue.rush.filter (fun id => !s.queue.strip.contains id), signal := true
          standard := standard ++ s.queue.standard.filter (fun id => !s.queue.strip.contains id) }
        transit := { s.transit with train := [], consecutiveBlind := 0, waitingMarks := [] }
        engine := { s.engine with current := none }
        cal := { strip := .none, filter := .noReading, surfaces := match surface with
          | none => s.cal.surfaces
          | some u => s.cal.surfaces.set u { s.surface u with last := some last } } })
  ∧ (∀ (id made i : Nat) (u : PrintUnit) (o : Order) (s : State), CleanStorage s →
    s.unit? id = some u → u.kind ≠ .strip → u.void = false → u.spoiled = false → u.slot = some i →
    s.order? i = some o → u.number = some o.number → o.state ≠ .damaged →
    made < s.queue.pool.length → s.unit? made = none → (∀ k < made, (s.unit? k).isSome = true) →
    let reprint := { u with kind := .reprint, place := .queue, exposure := none }
    resetSpoilAll [id] s = { s with
      queue := { s.queue with
        pool := (s.queue.pool.set made (some reprint)).set id none, signal := true
        rush := if o.queueClass = .rush then made :: s.queue.rush else s.queue.rush
        standard := if o.queueClass = .standard then made :: s.queue.standard else s.queue.standard }
      orders := { s.orders with
        slots := s.orders.slots.set i (some { o with spoils := min (o.spoils + 1) 65535 }) } })
  ∧ ∀ (x : Sensed) (i : Nat) (word : RecordWord) (s : State), CleanStorage s → s.store.cycle = none →
    (∀ name, checkAgrees (s.store.sheet name).entries = true ∧ (s.store.sheet name).bad = false) →
    i < 64 → s.orders.slots.length = 64 →
    let finds := fun (word : RecordWord) (o : Order) =>
      ∃ t : State, exec (.retainedStart x []) { s with orders := { s.orders with
          slots := s.orders.slots.set i (some o), heldList := s.orders.heldList.erase i } } = .next t
        ∧ exec (.retainedStart x [{ slot := i, word, bits := 2 }]) s =
          .next (t.raise .recordDamaged i)
    (s.order? i = none → ∃ o : Order, o.state = .damaged ∧ o.number = 0 ∧ finds .state o)
    ∧ ∀ o, s.order? i = some o → o.state ≠ .damaged →
      finds word { o with state := .damaged, number := if word = .number then 0 else o.number }
      ∧ ∃ t : State, exec (.retainedStart x []) s = .next t
        ∧ let n := s.memory.corrections + 1
          let t1 := { t with memory := { t.memory with
            corrections := if n ≤ 65535 then n else s.memory.corrections } }
          exec (.retainedStart x [{ slot := i, word, bits := 1 }]) s = .next
            (if n ≤ 65535 ∧ n % s.store.general.value 9 = 0 then t1.raise .corrections i else t1)

/-- POWER_LOSS and RESET_INPUT_ASSERTED stop the part and put out its head, and keep the rest of its state: the part
is off, or takes no event until a start. A part that is off stays as it is. That a stop keeps the rest, and that an
off part ignores the reset input, is log entry 12. A write cycle cut short leaves each entry
of the written page, and the check entry, with its old or its new value, which of them is not said; every other
entry and every other sheet stays (R183, R185, log entry 6). -/
def Obligations.StoppingCutsAWriteCycle : Prop :=
  ∀ s : State,
    (s.power = .off → exec .powerLoss s = .next s ∧ exec .resetInputAsserted s = .next s)
    ∧ (s.power ≠ .off →
      let dark := { s.engine with head := .unlit }
      (s.store.cycle = none →
        exec .powerLoss s = .next { s with power := .off, engine := dark }
        ∧ exec .resetInputAsserted s = .next { s with power := .inReset, engine := dark })
      ∧ ∀ c : WriteCycle, s.store.cycle = some c → (s.store.sheet c.sheet).entries.length = 64 →
        c.before.length = 64 →
        ∃ sheet : Sheet,
          let t := { s with
            engine := dark, draws := s.draws + 1
            store := { s.store.setSheet c.sheet sheet with cycle := none } }
          exec .powerLoss s = .next { t with power := .off }
          ∧ exec .resetInputAsserted s = .next { t with power := .inReset }
          ∧ sheet = { s.store.sheet c.sheet with entries := sheet.entries }
          ∧ sheet.entries.length = 64
          ∧ ∀ i < 64,
            (sheet.entries[i]? = c.before[i]?
              ∨ ((i / 16 = c.page ∨ i = 63) ∧ sheet.entries[i]? = (s.store.sheet c.sheet).entries[i]?)))
end

