-- ==== Sys2Proof/Laws/State.lean ====
section
/-! SUPPORT. One lemma for each field under each update of the state, so that no proof unfolds a record
update. -/

namespace Sys2Proof.Machine

variable (s : State)

/-! ### State.setOrder -/

@[simp] theorem State.setOrder_power (i : Nat) (o : Order) : (s.setOrder i o).power = s.power := rfl
@[simp] theorem State.setOrder_orders_slots (i : Nat) (o : Order) :
    (s.setOrder i o).orders.slots = s.orders.slots.set i (some o) := rfl
@[simp] theorem State.setOrder_orders_nextNumber (i : Nat) (o : Order) :
    (s.setOrder i o).orders.nextNumber = s.orders.nextNumber := rfl
@[simp] theorem State.setOrder_orders_heldList (i : Nat) (o : Order) :
    (s.setOrder i o).orders.heldList = s.orders.heldList := rfl
@[simp] theorem State.setOrder_orders_discarded (i : Nat) (o : Order) :
    (s.setOrder i o).orders.discarded = s.orders.discarded := rfl
@[simp] theorem State.setOrder_orders_draftCheckDue (i : Nat) (o : Order) :
    (s.setOrder i o).orders.draftCheckDue = s.orders.draftCheckDue := rfl
@[simp] theorem State.setOrder_orders_trialDue (i : Nat) (o : Order) :
    (s.setOrder i o).orders.trialDue = s.orders.trialDue := rfl
@[simp] theorem State.setOrder_clock (i : Nat) (o : Order) : (s.setOrder i o).clock = s.clock := rfl
@[simp] theorem State.setOrder_memory (i : Nat) (o : Order) : (s.setOrder i o).memory = s.memory := rfl
@[simp] theorem State.setOrder_queue (i : Nat) (o : Order) : (s.setOrder i o).queue = s.queue := rfl
@[simp] theorem State.setOrder_engine (i : Nat) (o : Order) : (s.setOrder i o).engine = s.engine := rfl
@[simp] theorem State.setOrder_transit (i : Nat) (o : Order) : (s.setOrder i o).transit = s.transit := rfl
@[simp] theorem State.setOrder_sorter (i : Nat) (o : Order) : (s.setOrder i o).sorter = s.sorter := rfl
@[simp] theorem State.setOrder_cal (i : Nat) (o : Order) : (s.setOrder i o).cal = s.cal := rfl
@[simp] theorem State.setOrder_link (i : Nat) (o : Order) : (s.setOrder i o).link = s.link := rfl
@[simp] theorem State.setOrder_notices (i : Nat) (o : Order) : (s.setOrder i o).notices = s.notices := rfl
@[simp] theorem State.setOrder_store (i : Nat) (o : Order) : (s.setOrder i o).store = s.store := rfl
@[simp] theorem State.setOrder_draws (i : Nat) (o : Order) : (s.setOrder i o).draws = s.draws := rfl
@[simp] theorem State.setOrder_pending (i : Nat) (o : Order) : (s.setOrder i o).pending = s.pending := rfl

/-! ### State.freeSlot -/

@[simp] theorem State.freeSlot_power (i : Nat) : (s.freeSlot i).power = s.power := rfl
@[simp] theorem State.freeSlot_orders_slots (i : Nat) :
    (s.freeSlot i).orders.slots = s.orders.slots.set i none := rfl
@[simp] theorem State.freeSlot_orders_nextNumber (i : Nat) :
    (s.freeSlot i).orders.nextNumber = s.orders.nextNumber := rfl
@[simp] theorem State.freeSlot_orders_heldList (i : Nat) :
    (s.freeSlot i).orders.heldList = s.orders.heldList := rfl
@[simp] theorem State.freeSlot_orders_discarded (i : Nat) :
    (s.freeSlot i).orders.discarded = s.orders.discarded := rfl
@[simp] theorem State.freeSlot_orders_draftCheckDue (i : Nat) :
    (s.freeSlot i).orders.draftCheckDue = s.orders.draftCheckDue := rfl
@[simp] theorem State.freeSlot_orders_trialDue (i : Nat) :
    (s.freeSlot i).orders.trialDue = s.orders.trialDue := rfl
@[simp] theorem State.freeSlot_clock (i : Nat) : (s.freeSlot i).clock = s.clock := rfl
@[simp] theorem State.freeSlot_memory_upsets (i : Nat) :
    (s.freeSlot i).memory.upsets = s.memory.upsets.filter fun u => u.slot != i := rfl
@[simp] theorem State.freeSlot_memory_corrections (i : Nat) :
    (s.freeSlot i).memory.corrections = s.memory.corrections := rfl
@[simp] theorem State.freeSlot_memory_threshold (i : Nat) :
    (s.freeSlot i).memory.threshold = s.memory.threshold := rfl
@[simp] theorem State.freeSlot_queue_pool (i : Nat) :
    (s.freeSlot i).queue.pool = s.queue.pool := rfl
@[simp] theorem State.freeSlot_queue_strip (i : Nat) :
    (s.freeSlot i).queue.strip = s.queue.strip := rfl
@[simp] theorem State.freeSlot_queue_rush (i : Nat) :
    (s.freeSlot i).queue.rush = s.queue.rush := rfl
@[simp] theorem State.freeSlot_queue_standard (i : Nat) :
    (s.freeSlot i).queue.standard = s.queue.standard := rfl
@[simp] theorem State.freeSlot_queue_figures (i : Nat) :
    (s.freeSlot i).queue.figures = s.queue.figures.set i none := rfl
@[simp] theorem State.freeSlot_queue_runCount (i : Nat) :
    (s.freeSlot i).queue.runCount = s.queue.runCount := rfl
@[simp] theorem State.freeSlot_queue_heldCause (i : Nat) :
    (s.freeSlot i).queue.heldCause = s.queue.heldCause := rfl
@[simp] theorem State.freeSlot_queue_signal (i : Nat) :
    (s.freeSlot i).queue.signal = s.queue.signal := rfl
@[simp] theorem State.freeSlot_engine (i : Nat) : (s.freeSlot i).engine = s.engine := rfl
@[simp] theorem State.freeSlot_transit (i : Nat) : (s.freeSlot i).transit = s.transit := rfl
@[simp] theorem State.freeSlot_sorter (i : Nat) : (s.freeSlot i).sorter = s.sorter := rfl
@[simp] theorem State.freeSlot_cal (i : Nat) : (s.freeSlot i).cal = s.cal := rfl
@[simp] theorem State.freeSlot_link (i : Nat) : (s.freeSlot i).link = s.link := rfl
@[simp] theorem State.freeSlot_notices (i : Nat) : (s.freeSlot i).notices = s.notices := rfl
@[simp] theorem State.freeSlot_store (i : Nat) : (s.freeSlot i).store = s.store := rfl
@[simp] theorem State.freeSlot_draws (i : Nat) : (s.freeSlot i).draws = s.draws := rfl
@[simp] theorem State.freeSlot_pending (i : Nat) : (s.freeSlot i).pending = s.pending := rfl

/-! ### State.setUnit -/

@[simp] theorem State.setUnit_power (id : Nat) (u : PrintUnit) : (s.setUnit id u).power = s.power := rfl
@[simp] theorem State.setUnit_orders (id : Nat) (u : PrintUnit) : (s.setUnit id u).orders = s.orders := rfl
@[simp] theorem State.setUnit_clock (id : Nat) (u : PrintUnit) : (s.setUnit id u).clock = s.clock := rfl
@[simp] theorem State.setUnit_memory (id : Nat) (u : PrintUnit) : (s.setUnit id u).memory = s.memory := rfl
@[simp] theorem State.setUnit_queue_pool (id : Nat) (u : PrintUnit) :
    (s.setUnit id u).queue.pool = s.queue.pool.set id (some u) := rfl
@[simp] theorem State.setUnit_queue_strip (id : Nat) (u : PrintUnit) :
    (s.setUnit id u).queue.strip = s.queue.strip := rfl
@[simp] theorem State.setUnit_queue_rush (id : Nat) (u : PrintUnit) :
    (s.setUnit id u).queue.rush = s.queue.rush := rfl
@[simp] theorem State.setUnit_queue_standard (id : Nat) (u : PrintUnit) :
    (s.setUnit id u).queue.standard = s.queue.standard := rfl
@[simp] theorem State.setUnit_queue_figures (id : Nat) (u : PrintUnit) :
    (s.setUnit id u).queue.figures = s.queue.figures := rfl
@[simp] theorem State.setUnit_queue_runCount (id : Nat) (u : PrintUnit) :
    (s.setUnit id u).queue.runCount = s.queue.runCount := rfl
@[simp] theorem State.setUnit_queue_heldCause (id : Nat) (u : PrintUnit) :
    (s.setUnit id u).queue.heldCause = s.queue.heldCause := rfl
@[simp] theorem State.setUnit_queue_signal (id : Nat) (u : PrintUnit) :
    (s.setUnit id u).queue.signal = s.queue.signal := rfl
@[simp] theorem State.setUnit_engine (id : Nat) (u : PrintUnit) : (s.setUnit id u).engine = s.engine := rfl
@[simp] theorem State.setUnit_transit (id : Nat) (u : PrintUnit) : (s.setUnit id u).transit = s.transit := rfl
@[simp] theorem State.setUnit_sorter (id : Nat) (u : PrintUnit) : (s.setUnit id u).sorter = s.sorter := rfl
@[simp] theorem State.setUnit_cal (id : Nat) (u : PrintUnit) : (s.setUnit id u).cal = s.cal := rfl
@[simp] theorem State.setUnit_link (id : Nat) (u : PrintUnit) : (s.setUnit id u).link = s.link := rfl
@[simp] theorem State.setUnit_notices (id : Nat) (u : PrintUnit) : (s.setUnit id u).notices = s.notices := rfl
@[simp] theorem State.setUnit_store (id : Nat) (u : PrintUnit) : (s.setUnit id u).store = s.store := rfl
@[simp] theorem State.setUnit_draws (id : Nat) (u : PrintUnit) : (s.setUnit id u).draws = s.draws := rfl
@[simp] theorem State.setUnit_pending (id : Nat) (u : PrintUnit) : (s.setUnit id u).pending = s.pending := rfl

/-! ### State.signal -/

@[simp] theorem State.signal_power : (s.signal).power = s.power := rfl
@[simp] theorem State.signal_orders : (s.signal).orders = s.orders := rfl
@[simp] theorem State.signal_clock : (s.signal).clock = s.clock := rfl
@[simp] theorem State.signal_memory : (s.signal).memory = s.memory := rfl
@[simp] theorem State.signal_queue_pool :
    (s.signal).queue.pool = s.queue.pool := rfl
@[simp] theorem State.signal_queue_strip :
    (s.signal).queue.strip = s.queue.strip := rfl
@[simp] theorem State.signal_queue_rush :
    (s.signal).queue.rush = s.queue.rush := rfl
@[simp] theorem State.signal_queue_standard :
    (s.signal).queue.standard = s.queue.standard := rfl
@[simp] theorem State.signal_queue_figures :
    (s.signal).queue.figures = s.queue.figures := rfl
@[simp] theorem State.signal_queue_runCount :
    (s.signal).queue.runCount = s.queue.runCount := rfl
@[simp] theorem State.signal_queue_heldCause :
    (s.signal).queue.heldCause = s.queue.heldCause := rfl
@[simp] theorem State.signal_queue_signal :
    (s.signal).queue.signal = true := rfl
@[simp] theorem State.signal_engine : (s.signal).engine = s.engine := rfl
@[simp] theorem State.signal_transit : (s.signal).transit = s.transit := rfl
@[simp] theorem State.signal_sorter : (s.signal).sorter = s.sorter := rfl
@[simp] theorem State.signal_cal : (s.signal).cal = s.cal := rfl
@[simp] theorem State.signal_link : (s.signal).link = s.link := rfl
@[simp] theorem State.signal_notices : (s.signal).notices = s.notices := rfl
@[simp] theorem State.signal_store : (s.signal).store = s.store := rfl
@[simp] theorem State.signal_draws : (s.signal).draws = s.draws := rfl
@[simp] theorem State.signal_pending : (s.signal).pending = s.pending := rfl

/-! ### State.releaseUnit -/

@[simp] theorem State.releaseUnit_power (id : Nat) : (s.releaseUnit id).power = s.power := rfl
@[simp] theorem State.releaseUnit_orders (id : Nat) : (s.releaseUnit id).orders = s.orders := rfl
@[simp] theorem State.releaseUnit_clock (id : Nat) : (s.releaseUnit id).clock = s.clock := rfl
@[simp] theorem State.releaseUnit_memory (id : Nat) : (s.releaseUnit id).memory = s.memory := rfl
@[simp] theorem State.releaseUnit_queue_pool (id : Nat) :
    (s.releaseUnit id).queue.pool = s.queue.pool.set id none := rfl
@[simp] theorem State.releaseUnit_queue_strip (id : Nat) :
    (s.releaseUnit id).queue.strip = s.queue.strip := rfl
@[simp] theorem State.releaseUnit_queue_rush (id : Nat) :
    (s.releaseUnit id).queue.rush = s.queue.rush := rfl
@[simp] theorem State.releaseUnit_queue_standard (id : Nat) :
    (s.releaseUnit id).queue.standard = s.queue.standard := rfl
@[simp] theorem State.releaseUnit_queue_figures (id : Nat) :
    (s.releaseUnit id).queue.figures = s.queue.figures := rfl
@[simp] theorem State.releaseUnit_queue_runCount (id : Nat) :
    (s.releaseUnit id).queue.runCount = s.queue.runCount := rfl
@[simp] theorem State.releaseUnit_queue_heldCause (id : Nat) :
    (s.releaseUnit id).queue.heldCause = s.queue.heldCause := rfl
@[simp] theorem State.releaseUnit_queue_signal (id : Nat) :
    (s.releaseUnit id).queue.signal = true := rfl
@[simp] theorem State.releaseUnit_engine (id : Nat) : (s.releaseUnit id).engine = s.engine := rfl
@[simp] theorem State.releaseUnit_transit (id : Nat) : (s.releaseUnit id).transit = s.transit := rfl
@[simp] theorem State.releaseUnit_sorter (id : Nat) : (s.releaseUnit id).sorter = s.sorter := rfl
@[simp] theorem State.releaseUnit_cal (id : Nat) : (s.releaseUnit id).cal = s.cal := rfl
@[simp] theorem State.releaseUnit_link (id : Nat) : (s.releaseUnit id).link = s.link := rfl
@[simp] theorem State.releaseUnit_notices (id : Nat) : (s.releaseUnit id).notices = s.notices := rfl
@[simp] theorem State.releaseUnit_store (id : Nat) : (s.releaseUnit id).store = s.store := rfl
@[simp] theorem State.releaseUnit_draws (id : Nat) : (s.releaseUnit id).draws = s.draws := rfl
@[simp] theorem State.releaseUnit_pending (id : Nat) : (s.releaseUnit id).pending = s.pending := rfl

/-! ### State.leaveQueue -/

@[simp] theorem State.leaveQueue_power (ids : List Nat) : (s.leaveQueue ids).power = s.power := rfl
@[simp] theorem State.leaveQueue_orders (ids : List Nat) : (s.leaveQueue ids).orders = s.orders := rfl
@[simp] theorem State.leaveQueue_clock (ids : List Nat) : (s.leaveQueue ids).clock = s.clock := rfl
@[simp] theorem State.leaveQueue_memory (ids : List Nat) : (s.leaveQueue ids).memory = s.memory := rfl
@[simp] theorem State.leaveQueue_queue_pool (ids : List Nat) :
    (s.leaveQueue ids).queue.pool = s.queue.pool := rfl
@[simp] theorem State.leaveQueue_queue_strip (ids : List Nat) :
    (s.leaveQueue ids).queue.strip = s.queue.strip.filter fun id => !ids.contains id := rfl
@[simp] theorem State.leaveQueue_queue_rush (ids : List Nat) :
    (s.leaveQueue ids).queue.rush = s.queue.rush.filter fun id => !ids.contains id := rfl
@[simp] theorem State.leaveQueue_queue_standard (ids : List Nat) :
    (s.leaveQueue ids).queue.standard = s.queue.standard.filter fun id => !ids.contains id := rfl
@[simp] theorem State.leaveQueue_queue_figures (ids : List Nat) :
    (s.leaveQueue ids).queue.figures = s.queue.figures := rfl
@[simp] theorem State.leaveQueue_queue_runCount (ids : List Nat) :
    (s.leaveQueue ids).queue.runCount = s.queue.runCount := rfl
@[simp] theorem State.leaveQueue_queue_heldCause (ids : List Nat) :
    (s.leaveQueue ids).queue.heldCause = s.queue.heldCause := rfl
@[simp] theorem State.leaveQueue_queue_signal (ids : List Nat) :
    (s.leaveQueue ids).queue.signal = s.queue.signal := rfl
@[simp] theorem State.leaveQueue_engine (ids : List Nat) : (s.leaveQueue ids).engine = s.engine := rfl
@[simp] theorem State.leaveQueue_transit (ids : List Nat) : (s.leaveQueue ids).transit = s.transit := rfl
@[simp] theorem State.leaveQueue_sorter (ids : List Nat) : (s.leaveQueue ids).sorter = s.sorter := rfl
@[simp] theorem State.leaveQueue_cal (ids : List Nat) : (s.leaveQueue ids).cal = s.cal := rfl
@[simp] theorem State.leaveQueue_link (ids : List Nat) : (s.leaveQueue ids).link = s.link := rfl
@[simp] theorem State.leaveQueue_notices (ids : List Nat) : (s.leaveQueue ids).notices = s.notices := rfl
@[simp] theorem State.leaveQueue_store (ids : List Nat) : (s.leaveQueue ids).store = s.store := rfl
@[simp] theorem State.leaveQueue_draws (ids : List Nat) : (s.leaveQueue ids).draws = s.draws := rfl
@[simp] theorem State.leaveQueue_pending (ids : List Nat) : (s.leaveQueue ids).pending = s.pending := rfl

/-! ### State.oweTrial -/

@[simp] theorem State.oweTrial_power : (s.oweTrial).power = s.power := rfl
@[simp] theorem State.oweTrial_orders_slots :
    (s.oweTrial).orders.slots = s.orders.slots := rfl
@[simp] theorem State.oweTrial_orders_nextNumber :
    (s.oweTrial).orders.nextNumber = s.orders.nextNumber := rfl
@[simp] theorem State.oweTrial_orders_heldList :
    (s.oweTrial).orders.heldList = s.orders.heldList := rfl
@[simp] theorem State.oweTrial_orders_discarded :
    (s.oweTrial).orders.discarded = s.orders.discarded := rfl
@[simp] theorem State.oweTrial_orders_draftCheckDue :
    (s.oweTrial).orders.draftCheckDue = s.orders.draftCheckDue := rfl
@[simp] theorem State.oweTrial_orders_trialDue :
    (s.oweTrial).orders.trialDue = true := rfl
@[simp] theorem State.oweTrial_clock : (s.oweTrial).clock = s.clock := rfl
@[simp] theorem State.oweTrial_memory : (s.oweTrial).memory = s.memory := rfl
@[simp] theorem State.oweTrial_queue : (s.oweTrial).queue = s.queue := rfl
@[simp] theorem State.oweTrial_engine : (s.oweTrial).engine = s.engine := rfl
@[simp] theorem State.oweTrial_transit : (s.oweTrial).transit = s.transit := rfl
@[simp] theorem State.oweTrial_sorter : (s.oweTrial).sorter = s.sorter := rfl
@[simp] theorem State.oweTrial_cal : (s.oweTrial).cal = s.cal := rfl
@[simp] theorem State.oweTrial_link : (s.oweTrial).link = s.link := rfl
@[simp] theorem State.oweTrial_notices : (s.oweTrial).notices = s.notices := rfl
@[simp] theorem State.oweTrial_store : (s.oweTrial).store = s.store := rfl
@[simp] theorem State.oweTrial_draws : (s.oweTrial).draws = s.draws := rfl
@[simp] theorem State.oweTrial_pending : (s.oweTrial).pending = s.pending := rfl

/-! ### State.setFigures -/

@[simp] theorem State.setFigures_power (i : Nat) (e : Option FigureEntry) : (s.setFigures i e).power = s.power := rfl
@[simp] theorem State.setFigures_orders (i : Nat) (e : Option FigureEntry) : (s.setFigures i e).orders = s.orders := rfl
@[simp] theorem State.setFigures_clock (i : Nat) (e : Option FigureEntry) : (s.setFigures i e).clock = s.clock := rfl
@[simp] theorem State.setFigures_memory (i : Nat) (e : Option FigureEntry) : (s.setFigures i e).memory = s.memory := rfl
@[simp] theorem State.setFigures_queue_pool (i : Nat) (e : Option FigureEntry) :
    (s.setFigures i e).queue.pool = s.queue.pool := rfl
@[simp] theorem State.setFigures_queue_strip (i : Nat) (e : Option FigureEntry) :
    (s.setFigures i e).queue.strip = s.queue.strip := rfl
@[simp] theorem State.setFigures_queue_rush (i : Nat) (e : Option FigureEntry) :
    (s.setFigures i e).queue.rush = s.queue.rush := rfl
@[simp] theorem State.setFigures_queue_standard (i : Nat) (e : Option FigureEntry) :
    (s.setFigures i e).queue.standard = s.queue.standard := rfl
@[simp] theorem State.setFigures_queue_figures (i : Nat) (e : Option FigureEntry) :
    (s.setFigures i e).queue.figures = s.queue.figures.set i e := rfl
@[simp] theorem State.setFigures_queue_runCount (i : Nat) (e : Option FigureEntry) :
    (s.setFigures i e).queue.runCount = s.queue.runCount := rfl
@[simp] theorem State.setFigures_queue_heldCause (i : Nat) (e : Option FigureEntry) :
    (s.setFigures i e).queue.heldCause = s.queue.heldCause := rfl
@[simp] theorem State.setFigures_queue_signal (i : Nat) (e : Option FigureEntry) :
    (s.setFigures i e).queue.signal = s.queue.signal := rfl
@[simp] theorem State.setFigures_engine (i : Nat) (e : Option FigureEntry) : (s.setFigures i e).engine = s.engine := rfl
@[simp] theorem State.setFigures_transit (i : Nat) (e : Option FigureEntry) : (s.setFigures i e).transit = s.transit := rfl
@[simp] theorem State.setFigures_sorter (i : Nat) (e : Option FigureEntry) : (s.setFigures i e).sorter = s.sorter := rfl
@[simp] theorem State.setFigures_cal (i : Nat) (e : Option FigureEntry) : (s.setFigures i e).cal = s.cal := rfl
@[simp] theorem State.setFigures_link (i : Nat) (e : Option FigureEntry) : (s.setFigures i e).link = s.link := rfl
@[simp] theorem State.setFigures_notices (i : Nat) (e : Option FigureEntry) : (s.setFigures i e).notices = s.notices := rfl
@[simp] theorem State.setFigures_store (i : Nat) (e : Option FigureEntry) : (s.setFigures i e).store = s.store := rfl
@[simp] theorem State.setFigures_draws (i : Nat) (e : Option FigureEntry) : (s.setFigures i e).draws = s.draws := rfl
@[simp] theorem State.setFigures_pending (i : Nat) (e : Option FigureEntry) : (s.setFigures i e).pending = s.pending := rfl

/-! ### State.setHeldCause -/

@[simp] theorem State.setHeldCause_power (cause : Option HeldCause) : (s.setHeldCause cause).power = s.power := rfl
@[simp] theorem State.setHeldCause_orders (cause : Option HeldCause) : (s.setHeldCause cause).orders = s.orders := rfl
@[simp] theorem State.setHeldCause_clock (cause : Option HeldCause) : (s.setHeldCause cause).clock = s.clock := rfl
@[simp] theorem State.setHeldCause_memory (cause : Option HeldCause) : (s.setHeldCause cause).memory = s.memory := rfl
@[simp] theorem State.setHeldCause_queue_pool (cause : Option HeldCause) :
    (s.setHeldCause cause).queue.pool = s.queue.pool := rfl
@[simp] theorem State.setHeldCause_queue_strip (cause : Option HeldCause) :
    (s.setHeldCause cause).queue.strip = s.queue.strip := rfl
@[simp] theorem State.setHeldCause_queue_rush (cause : Option HeldCause) :
    (s.setHeldCause cause).queue.rush = s.queue.rush := rfl
@[simp] theorem State.setHeldCause_queue_standard (cause : Option HeldCause) :
    (s.setHeldCause cause).queue.standard = s.queue.standard := rfl
@[simp] theorem State.setHeldCause_queue_figures (cause : Option HeldCause) :
    (s.setHeldCause cause).queue.figures = s.queue.figures := rfl
@[simp] theorem State.setHeldCause_queue_runCount (cause : Option HeldCause) :
    (s.setHeldCause cause).queue.runCount = s.queue.runCount := rfl
@[simp] theorem State.setHeldCause_queue_heldCause (cause : Option HeldCause) :
    (s.setHeldCause cause).queue.heldCause = cause := rfl
@[simp] theorem State.setHeldCause_queue_signal (cause : Option HeldCause) :
    (s.setHeldCause cause).queue.signal = s.queue.signal := rfl
@[simp] theorem State.setHeldCause_engine (cause : Option HeldCause) : (s.setHeldCause cause).engine = s.engine := rfl
@[simp] theorem State.setHeldCause_transit (cause : Option HeldCause) : (s.setHeldCause cause).transit = s.transit := rfl
@[simp] theorem State.setHeldCause_sorter (cause : Option HeldCause) : (s.setHeldCause cause).sorter = s.sorter := rfl
@[simp] theorem State.setHeldCause_cal (cause : Option HeldCause) : (s.setHeldCause cause).cal = s.cal := rfl
@[simp] theorem State.setHeldCause_link (cause : Option HeldCause) : (s.setHeldCause cause).link = s.link := rfl
@[simp] theorem State.setHeldCause_notices (cause : Option HeldCause) : (s.setHeldCause cause).notices = s.notices := rfl
@[simp] theorem State.setHeldCause_store (cause : Option HeldCause) : (s.setHeldCause cause).store = s.store := rfl
@[simp] theorem State.setHeldCause_draws (cause : Option HeldCause) : (s.setHeldCause cause).draws = s.draws := rfl
@[simp] theorem State.setHeldCause_pending (cause : Option HeldCause) : (s.setHeldCause cause).pending = s.pending := rfl

/-! ### State.drawn -/

@[simp] theorem State.drawn_power : (s.drawn).power = s.power := rfl
@[simp] theorem State.drawn_orders : (s.drawn).orders = s.orders := rfl
@[simp] theorem State.drawn_clock : (s.drawn).clock = s.clock := rfl
@[simp] theorem State.drawn_memory : (s.drawn).memory = s.memory := rfl
@[simp] theorem State.drawn_queue : (s.drawn).queue = s.queue := rfl
@[simp] theorem State.drawn_engine : (s.drawn).engine = s.engine := rfl
@[simp] theorem State.drawn_transit : (s.drawn).transit = s.transit := rfl
@[simp] theorem State.drawn_sorter : (s.drawn).sorter = s.sorter := rfl
@[simp] theorem State.drawn_cal : (s.drawn).cal = s.cal := rfl
@[simp] theorem State.drawn_link : (s.drawn).link = s.link := rfl
@[simp] theorem State.drawn_notices : (s.drawn).notices = s.notices := rfl
@[simp] theorem State.drawn_store : (s.drawn).store = s.store := rfl
@[simp] theorem State.drawn_draws : (s.drawn).draws = s.draws + 1 := rfl
@[simp] theorem State.drawn_pending : (s.drawn).pending = s.pending := rfl

/-! ### State.setSurface -/

@[simp] theorem State.setSurface_power (u : Nat) (r : SurfaceCal) : (s.setSurface u r).power = s.power := rfl
@[simp] theorem State.setSurface_orders (u : Nat) (r : SurfaceCal) : (s.setSurface u r).orders = s.orders := rfl
@[simp] theorem State.setSurface_clock (u : Nat) (r : SurfaceCal) : (s.setSurface u r).clock = s.clock := rfl
@[simp] theorem State.setSurface_memory (u : Nat) (r : SurfaceCal) : (s.setSurface u r).memory = s.memory := rfl
@[simp] theorem State.setSurface_queue (u : Nat) (r : SurfaceCal) : (s.setSurface u r).queue = s.queue := rfl
@[simp] theorem State.setSurface_engine (u : Nat) (r : SurfaceCal) : (s.setSurface u r).engine = s.engine := rfl
@[simp] theorem State.setSurface_transit (u : Nat) (r : SurfaceCal) : (s.setSurface u r).transit = s.transit := rfl
@[simp] theorem State.setSurface_sorter (u : Nat) (r : SurfaceCal) : (s.setSurface u r).sorter = s.sorter := rfl
@[simp] theorem State.setSurface_cal_surfaces (u : Nat) (r : SurfaceCal) :
    (s.setSurface u r).cal.surfaces = s.cal.surfaces.set u r := rfl
@[simp] theorem State.setSurface_cal_strip (u : Nat) (r : SurfaceCal) :
    (s.setSurface u r).cal.strip = s.cal.strip := rfl
@[simp] theorem State.setSurface_cal_filter (u : Nat) (r : SurfaceCal) :
    (s.setSurface u r).cal.filter = s.cal.filter := rfl
@[simp] theorem State.setSurface_link (u : Nat) (r : SurfaceCal) : (s.setSurface u r).link = s.link := rfl
@[simp] theorem State.setSurface_notices (u : Nat) (r : SurfaceCal) : (s.setSurface u r).notices = s.notices := rfl
@[simp] theorem State.setSurface_store (u : Nat) (r : SurfaceCal) : (s.setSurface u r).store = s.store := rfl
@[simp] theorem State.setSurface_draws (u : Nat) (r : SurfaceCal) : (s.setSurface u r).draws = s.draws := rfl
@[simp] theorem State.setSurface_pending (u : Nat) (r : SurfaceCal) : (s.setSurface u r).pending = s.pending := rfl

/-! ### State.setStrip -/

@[simp] theorem State.setStrip_power (strip : StripRecord) : (s.setStrip strip).power = s.power := rfl
@[simp] theorem State.setStrip_orders (strip : StripRecord) : (s.setStrip strip).orders = s.orders := rfl
@[simp] theorem State.setStrip_clock (strip : StripRecord) : (s.setStrip strip).clock = s.clock := rfl
@[simp] theorem State.setStrip_memory (strip : StripRecord) : (s.setStrip strip).memory = s.memory := rfl
@[simp] theorem State.setStrip_queue (strip : StripRecord) : (s.setStrip strip).queue = s.queue := rfl
@[simp] theorem State.setStrip_engine (strip : StripRecord) : (s.setStrip strip).engine = s.engine := rfl
@[simp] theorem State.setStrip_transit (strip : StripRecord) : (s.setStrip strip).transit = s.transit := rfl
@[simp] theorem State.setStrip_sorter (strip : StripRecord) : (s.setStrip strip).sorter = s.sorter := rfl
@[simp] theorem State.setStrip_cal_surfaces (strip : StripRecord) :
    (s.setStrip strip).cal.surfaces = s.cal.surfaces := rfl
@[simp] theorem State.setStrip_cal_strip (strip : StripRecord) :
    (s.setStrip strip).cal.strip = strip := rfl
@[simp] theorem State.setStrip_cal_filter (strip : StripRecord) :
    (s.setStrip strip).cal.filter = s.cal.filter := rfl
@[simp] theorem State.setStrip_link (strip : StripRecord) : (s.setStrip strip).link = s.link := rfl
@[simp] theorem State.setStrip_notices (strip : StripRecord) : (s.setStrip strip).notices = s.notices := rfl
@[simp] theorem State.setStrip_store (strip : StripRecord) : (s.setStrip strip).store = s.store := rfl
@[simp] theorem State.setStrip_draws (strip : StripRecord) : (s.setStrip strip).draws = s.draws := rfl
@[simp] theorem State.setStrip_pending (strip : StripRecord) : (s.setStrip strip).pending = s.pending := rfl

/-! ### State.setBin -/

@[simp] theorem State.setBin_power (n : Nat) (b : Bin) : (s.setBin n b).power = s.power := rfl
@[simp] theorem State.setBin_orders (n : Nat) (b : Bin) : (s.setBin n b).orders = s.orders := rfl
@[simp] theorem State.setBin_clock (n : Nat) (b : Bin) : (s.setBin n b).clock = s.clock := rfl
@[simp] theorem State.setBin_memory (n : Nat) (b : Bin) : (s.setBin n b).memory = s.memory := rfl
@[simp] theorem State.setBin_queue (n : Nat) (b : Bin) : (s.setBin n b).queue = s.queue := rfl
@[simp] theorem State.setBin_engine (n : Nat) (b : Bin) : (s.setBin n b).engine = s.engine := rfl
@[simp] theorem State.setBin_transit (n : Nat) (b : Bin) : (s.setBin n b).transit = s.transit := rfl
@[simp] theorem State.setBin_sorter_bins (n : Nat) (b : Bin) :
    (s.setBin n b).sorter.bins = s.sorter.bins.set (n - 1) b := rfl
@[simp] theorem State.setBin_sorter_overflow (n : Nat) (b : Bin) :
    (s.setBin n b).sorter.overflow = s.sorter.overflow := rfl
@[simp] theorem State.setBin_sorter_reject (n : Nat) (b : Bin) :
    (s.setBin n b).sorter.reject = s.sorter.reject := rfl
@[simp] theorem State.setBin_sorter_unclaimed (n : Nat) (b : Bin) :
    (s.setBin n b).sorter.unclaimed = s.sorter.unclaimed := rfl
@[simp] theorem State.setBin_sorter_capacity (n : Nat) (b : Bin) :
    (s.setBin n b).sorter.capacity = s.sorter.capacity := rfl
@[simp] theorem State.setBin_sorter_gate (n : Nat) (b : Bin) :
    (s.setBin n b).sorter.gate = s.sorter.gate := rfl
@[simp] theorem State.setBin_cal (n : Nat) (b : Bin) : (s.setBin n b).cal = s.cal := rfl
@[simp] theorem State.setBin_link (n : Nat) (b : Bin) : (s.setBin n b).link = s.link := rfl
@[simp] theorem State.setBin_notices (n : Nat) (b : Bin) : (s.setBin n b).notices = s.notices := rfl
@[simp] theorem State.setBin_store (n : Nat) (b : Bin) : (s.setBin n b).store = s.store := rfl
@[simp] theorem State.setBin_draws (n : Nat) (b : Bin) : (s.setBin n b).draws = s.draws := rfl
@[simp] theorem State.setBin_pending (n : Nat) (b : Bin) : (s.setBin n b).pending = s.pending := rfl

/-! ### State.selectGate -/

@[simp] theorem State.selectGate_power (gate : Gate) : (s.selectGate gate).power = s.power := rfl
@[simp] theorem State.selectGate_orders (gate : Gate) : (s.selectGate gate).orders = s.orders := rfl
@[simp] theorem State.selectGate_clock (gate : Gate) : (s.selectGate gate).clock = s.clock := rfl
@[simp] theorem State.selectGate_memory (gate : Gate) : (s.selectGate gate).memory = s.memory := rfl
@[simp] theorem State.selectGate_queue (gate : Gate) : (s.selectGate gate).queue = s.queue := rfl
@[simp] theorem State.selectGate_engine (gate : Gate) : (s.selectGate gate).engine = s.engine := rfl
@[simp] theorem State.selectGate_transit (gate : Gate) : (s.selectGate gate).transit = s.transit := rfl
@[simp] theorem State.selectGate_sorter_bins (gate : Gate) :
    (s.selectGate gate).sorter.bins = s.sorter.bins := rfl
@[simp] theorem State.selectGate_sorter_overflow (gate : Gate) :
    (s.selectGate gate).sorter.overflow = s.sorter.overflow := rfl
@[simp] theorem State.selectGate_sorter_reject (gate : Gate) :
    (s.selectGate gate).sorter.reject = s.sorter.reject := rfl
@[simp] theorem State.selectGate_sorter_unclaimed (gate : Gate) :
    (s.selectGate gate).sorter.unclaimed = s.sorter.unclaimed := rfl
@[simp] theorem State.selectGate_sorter_capacity (gate : Gate) :
    (s.selectGate gate).sorter.capacity = s.sorter.capacity := rfl
@[simp] theorem State.selectGate_sorter_gate (gate : Gate) :
    (s.selectGate gate).sorter.gate = gate := rfl
@[simp] theorem State.selectGate_cal (gate : Gate) : (s.selectGate gate).cal = s.cal := rfl
@[simp] theorem State.selectGate_link (gate : Gate) : (s.selectGate gate).link = s.link := rfl
@[simp] theorem State.selectGate_notices (gate : Gate) : (s.selectGate gate).notices = s.notices := rfl
@[simp] theorem State.selectGate_store (gate : Gate) : (s.selectGate gate).store = s.store := rfl
@[simp] theorem State.selectGate_draws (gate : Gate) : (s.selectGate gate).draws = s.draws := rfl
@[simp] theorem State.selectGate_pending (gate : Gate) : (s.selectGate gate).pending = s.pending := rfl

/-! ### State.raise -/

@[simp] theorem State.raise_power (kind : NoticeKind) (detail : Nat) : (s.raise kind detail).power = s.power := rfl
@[simp] theorem State.raise_orders (kind : NoticeKind) (detail : Nat) : (s.raise kind detail).orders = s.orders := rfl
@[simp] theorem State.raise_clock (kind : NoticeKind) (detail : Nat) : (s.raise kind detail).clock = s.clock := rfl
@[simp] theorem State.raise_memory (kind : NoticeKind) (detail : Nat) : (s.raise kind detail).memory = s.memory := rfl
@[simp] theorem State.raise_queue (kind : NoticeKind) (detail : Nat) : (s.raise kind detail).queue = s.queue := rfl
@[simp] theorem State.raise_engine (kind : NoticeKind) (detail : Nat) : (s.raise kind detail).engine = s.engine := rfl
@[simp] theorem State.raise_transit (kind : NoticeKind) (detail : Nat) : (s.raise kind detail).transit = s.transit := rfl
@[simp] theorem State.raise_sorter (kind : NoticeKind) (detail : Nat) : (s.raise kind detail).sorter = s.sorter := rfl
@[simp] theorem State.raise_cal (kind : NoticeKind) (detail : Nat) : (s.raise kind detail).cal = s.cal := rfl
@[simp] theorem State.raise_link (kind : NoticeKind) (detail : Nat) : (s.raise kind detail).link = s.link := rfl
@[simp] theorem State.raise_notices_kinds (kind : NoticeKind) (detail : Nat) :
    (s.raise kind detail).notices.kinds = s.notices.kinds.modify kind.index fun n => n.raised detail := rfl
@[simp] theorem State.raise_store (kind : NoticeKind) (detail : Nat) : (s.raise kind detail).store = s.store := rfl
@[simp] theorem State.raise_draws (kind : NoticeKind) (detail : Nat) : (s.raise kind detail).draws = s.draws := rfl
@[simp] theorem State.raise_pending (kind : NoticeKind) (detail : Nat) : (s.raise kind detail).pending = s.pending := rfl

/-! ### State.dropUpsets -/

@[simp] theorem State.dropUpsets_power (drop : Upset → Bool) : (s.dropUpsets drop).power = s.power := rfl
@[simp] theorem State.dropUpsets_orders (drop : Upset → Bool) : (s.dropUpsets drop).orders = s.orders := rfl
@[simp] theorem State.dropUpsets_clock (drop : Upset → Bool) : (s.dropUpsets drop).clock = s.clock := rfl
@[simp] theorem State.dropUpsets_memory_upsets (drop : Upset → Bool) :
    (s.dropUpsets drop).memory.upsets = s.memory.upsets.filter fun u => !drop u := rfl
@[simp] theorem State.dropUpsets_memory_corrections (drop : Upset → Bool) :
    (s.dropUpsets drop).memory.corrections = s.memory.corrections := rfl
@[simp] theorem State.dropUpsets_memory_threshold (drop : Upset → Bool) :
    (s.dropUpsets drop).memory.threshold = s.memory.threshold := rfl
@[simp] theorem State.dropUpsets_queue (drop : Upset → Bool) : (s.dropUpsets drop).queue = s.queue := rfl
@[simp] theorem State.dropUpsets_engine (drop : Upset → Bool) : (s.dropUpsets drop).engine = s.engine := rfl
@[simp] theorem State.dropUpsets_transit (drop : Upset → Bool) : (s.dropUpsets drop).transit = s.transit := rfl
@[simp] theorem State.dropUpsets_sorter (drop : Upset → Bool) : (s.dropUpsets drop).sorter = s.sorter := rfl
@[simp] theorem State.dropUpsets_cal (drop : Upset → Bool) : (s.dropUpsets drop).cal = s.cal := rfl
@[simp] theorem State.dropUpsets_link (drop : Upset → Bool) : (s.dropUpsets drop).link = s.link := rfl
@[simp] theorem State.dropUpsets_notices (drop : Upset → Bool) : (s.dropUpsets drop).notices = s.notices := rfl
@[simp] theorem State.dropUpsets_store (drop : Upset → Bool) : (s.dropUpsets drop).store = s.store := rfl
@[simp] theorem State.dropUpsets_draws (drop : Upset → Bool) : (s.dropUpsets drop).draws = s.draws := rfl
@[simp] theorem State.dropUpsets_pending (drop : Upset → Bool) : (s.dropUpsets drop).pending = s.pending := rfl

/-! ### State.mapEngine -/

@[simp] theorem State.mapEngine_power (f : Engine → Engine) : (s.mapEngine f).power = s.power := rfl
@[simp] theorem State.mapEngine_orders (f : Engine → Engine) : (s.mapEngine f).orders = s.orders := rfl
@[simp] theorem State.mapEngine_clock (f : Engine → Engine) : (s.mapEngine f).clock = s.clock := rfl
@[simp] theorem State.mapEngine_memory (f : Engine → Engine) : (s.mapEngine f).memory = s.memory := rfl
@[simp] theorem State.mapEngine_queue (f : Engine → Engine) : (s.mapEngine f).queue = s.queue := rfl
@[simp] theorem State.mapEngine_engine (f : Engine → Engine) : (s.mapEngine f).engine = f s.engine := rfl
@[simp] theorem State.mapEngine_transit (f : Engine → Engine) : (s.mapEngine f).transit = s.transit := rfl
@[simp] theorem State.mapEngine_sorter (f : Engine → Engine) : (s.mapEngine f).sorter = s.sorter := rfl
@[simp] theorem State.mapEngine_cal (f : Engine → Engine) : (s.mapEngine f).cal = s.cal := rfl
@[simp] theorem State.mapEngine_link (f : Engine → Engine) : (s.mapEngine f).link = s.link := rfl
@[simp] theorem State.mapEngine_notices (f : Engine → Engine) : (s.mapEngine f).notices = s.notices := rfl
@[simp] theorem State.mapEngine_store (f : Engine → Engine) : (s.mapEngine f).store = s.store := rfl
@[simp] theorem State.mapEngine_draws (f : Engine → Engine) : (s.mapEngine f).draws = s.draws := rfl
@[simp] theorem State.mapEngine_pending (f : Engine → Engine) : (s.mapEngine f).pending = s.pending := rfl

/-! ### State.mapSorter -/

@[simp] theorem State.mapSorter_power (f : Sorter → Sorter) : (s.mapSorter f).power = s.power := rfl
@[simp] theorem State.mapSorter_orders (f : Sorter → Sorter) : (s.mapSorter f).orders = s.orders := rfl
@[simp] theorem State.mapSorter_clock (f : Sorter → Sorter) : (s.mapSorter f).clock = s.clock := rfl
@[simp] theorem State.mapSorter_memory (f : Sorter → Sorter) : (s.mapSorter f).memory = s.memory := rfl
@[simp] theorem State.mapSorter_queue (f : Sorter → Sorter) : (s.mapSorter f).queue = s.queue := rfl
@[simp] theorem State.mapSorter_engine (f : Sorter → Sorter) : (s.mapSorter f).engine = s.engine := rfl
@[simp] theorem State.mapSorter_transit (f : Sorter → Sorter) : (s.mapSorter f).transit = s.transit := rfl
@[simp] theorem State.mapSorter_sorter (f : Sorter → Sorter) : (s.mapSorter f).sorter = f s.sorter := rfl
@[simp] theorem State.mapSorter_cal (f : Sorter → Sorter) : (s.mapSorter f).cal = s.cal := rfl
@[simp] theorem State.mapSorter_link (f : Sorter → Sorter) : (s.mapSorter f).link = s.link := rfl
@[simp] theorem State.mapSorter_notices (f : Sorter → Sorter) : (s.mapSorter f).notices = s.notices := rfl
@[simp] theorem State.mapSorter_store (f : Sorter → Sorter) : (s.mapSorter f).store = s.store := rfl
@[simp] theorem State.mapSorter_draws (f : Sorter → Sorter) : (s.mapSorter f).draws = s.draws := rfl
@[simp] theorem State.mapSorter_pending (f : Sorter → Sorter) : (s.mapSorter f).pending = s.pending := rfl

/-! ### State.mapTransit -/

@[simp] theorem State.mapTransit_power (f : Transit → Transit) : (s.mapTransit f).power = s.power := rfl
@[simp] theorem State.mapTransit_orders (f : Transit → Transit) : (s.mapTransit f).orders = s.orders := rfl
@[simp] theorem State.mapTransit_clock (f : Transit → Transit) : (s.mapTransit f).clock = s.clock := rfl
@[simp] theorem State.mapTransit_memory (f : Transit → Transit) : (s.mapTransit f).memory = s.memory := rfl
@[simp] theorem State.mapTransit_queue (f : Transit → Transit) : (s.mapTransit f).queue = s.queue := rfl
@[simp] theorem State.mapTransit_engine (f : Transit → Transit) : (s.mapTransit f).engine = s.engine := rfl
@[simp] theorem State.mapTransit_transit (f : Transit → Transit) : (s.mapTransit f).transit = f s.transit := rfl
@[simp] theorem State.mapTransit_sorter (f : Transit → Transit) : (s.mapTransit f).sorter = s.sorter := rfl
@[simp] theorem State.mapTransit_cal (f : Transit → Transit) : (s.mapTransit f).cal = s.cal := rfl
@[simp] theorem State.mapTransit_link (f : Transit → Transit) : (s.mapTransit f).link = s.link := rfl
@[simp] theorem State.mapTransit_notices (f : Transit → Transit) : (s.mapTransit f).notices = s.notices := rfl
@[simp] theorem State.mapTransit_store (f : Transit → Transit) : (s.mapTransit f).store = s.store := rfl
@[simp] theorem State.mapTransit_draws (f : Transit → Transit) : (s.mapTransit f).draws = s.draws := rfl
@[simp] theorem State.mapTransit_pending (f : Transit → Transit) : (s.mapTransit f).pending = s.pending := rfl

/-! ### State.mapLink -/

@[simp] theorem State.mapLink_power (f : LinkController → LinkController) : (s.mapLink f).power = s.power := rfl
@[simp] theorem State.mapLink_orders (f : LinkController → LinkController) : (s.mapLink f).orders = s.orders := rfl
@[simp] theorem State.mapLink_clock (f : LinkController → LinkController) : (s.mapLink f).clock = s.clock := rfl
@[simp] theorem State.mapLink_memory (f : LinkController → LinkController) : (s.mapLink f).memory = s.memory := rfl
@[simp] theorem State.mapLink_queue (f : LinkController → LinkController) : (s.mapLink f).queue = s.queue := rfl
@[simp] theorem State.mapLink_engine (f : LinkController → LinkController) : (s.mapLink f).engine = s.engine := rfl
@[simp] theorem State.mapLink_transit (f : LinkController → LinkController) : (s.mapLink f).transit = s.transit := rfl
@[simp] theorem State.mapLink_sorter (f : LinkController → LinkController) : (s.mapLink f).sorter = s.sorter := rfl
@[simp] theorem State.mapLink_cal (f : LinkController → LinkController) : (s.mapLink f).cal = s.cal := rfl
@[simp] theorem State.mapLink_link (f : LinkController → LinkController) : (s.mapLink f).link = f s.link := rfl
@[simp] theorem State.mapLink_notices (f : LinkController → LinkController) : (s.mapLink f).notices = s.notices := rfl
@[simp] theorem State.mapLink_store (f : LinkController → LinkController) : (s.mapLink f).store = s.store := rfl
@[simp] theorem State.mapLink_draws (f : LinkController → LinkController) : (s.mapLink f).draws = s.draws := rfl
@[simp] theorem State.mapLink_pending (f : LinkController → LinkController) : (s.mapLink f).pending = s.pending := rfl

/-! ### State.withPending -/

@[simp] theorem State.withPending_power (pending : List Instr) : (s.withPending pending).power = s.power := rfl
@[simp] theorem State.withPending_orders (pending : List Instr) : (s.withPending pending).orders = s.orders := rfl
@[simp] theorem State.withPending_clock (pending : List Instr) : (s.withPending pending).clock = s.clock := rfl
@[simp] theorem State.withPending_memory (pending : List Instr) : (s.withPending pending).memory = s.memory := rfl
@[simp] theorem State.withPending_queue (pending : List Instr) : (s.withPending pending).queue = s.queue := rfl
@[simp] theorem State.withPending_engine (pending : List Instr) : (s.withPending pending).engine = s.engine := rfl
@[simp] theorem State.withPending_transit (pending : List Instr) : (s.withPending pending).transit = s.transit := rfl
@[simp] theorem State.withPending_sorter (pending : List Instr) : (s.withPending pending).sorter = s.sorter := rfl
@[simp] theorem State.withPending_cal (pending : List Instr) : (s.withPending pending).cal = s.cal := rfl
@[simp] theorem State.withPending_link (pending : List Instr) : (s.withPending pending).link = s.link := rfl
@[simp] theorem State.withPending_notices (pending : List Instr) : (s.withPending pending).notices = s.notices := rfl
@[simp] theorem State.withPending_store (pending : List Instr) : (s.withPending pending).store = s.store := rfl
@[simp] theorem State.withPending_draws (pending : List Instr) : (s.withPending pending).draws = s.draws := rfl
@[simp] theorem State.withPending_pending (pending : List Instr) : (s.withPending pending).pending = pending := rfl

end Sys2Proof.Machine
end

