-- ==== Sys2Proof/Laws/Leaves.lean ====
section
/-! SUPPORT. What the operations over orders, units and notices leave alone: the supply, the clock, the link,
the engine, the train, the store, the queue of commands, every table's length, and the ranges of the notices
and the correction count. One lemma an operation, in the form that carries the fact on from an earlier state
`r`, so that a chain of operations is one term. -/

namespace Sys2Proof.Machine

/-- What an operation from `r` to `s` leaves alone and keeps. -/
structure Leaves (r s : State) : Prop where
  power       : s.power = r.power
  clock       : s.clock = r.clock
  link        : s.link = r.link
  engine      : s.engine = r.engine
  transit     : s.transit = r.transit
  store       : s.store = r.store
  pending     : s.pending = r.pending
  shape       : s.shape = r.shape
  notices     : (∀ n ∈ r.notices.kinds, n.Wf) → ∀ n ∈ s.notices.kinds, n.Wf
  corrections : r.memory.corrections ≤ 65535 → s.memory.corrections ≤ 65535

theorem Leaves.refl (s : State) : Leaves s s := ⟨rfl, rfl, rfl, rfl, rfl, rfl, rfl, rfl, id, id⟩

theorem Leaves.trans {r s t : State} (h : Leaves r s) (k : Leaves s t) : Leaves r t :=
  ⟨k.power.trans h.power, k.clock.trans h.clock, k.link.trans h.link, k.engine.trans h.engine,
   k.transit.trans h.transit, k.store.trans h.store, k.pending.trans h.pending,
   k.shape.trans h.shape, fun w => k.notices (h.notices w), fun w => k.corrections (h.corrections w)⟩

/-- An operation that touches nothing this relation names. -/
theorem Leaves.of_quiet {r s t : State} (h : Leaves r s) (h1 : t.power = s.power)
    (h2 : t.clock = s.clock) (h3 : t.link = s.link) (h4 : t.store = s.store)
    (h5 : t.pending = s.pending) (h6 : t.shape = s.shape) (h7 : t.notices = s.notices)
    (h8 : t.memory.corrections = s.memory.corrections) (h9 : t.engine = s.engine)
    (h10 : t.transit = s.transit) : Leaves r t :=
  h.trans ⟨h1, h2, h3, h9, h10, h4, h5, h6, by rw [h7]; exact id, by rw [h8]; exact id⟩

section
variable {r s : State}

/-! ### Ops.lean -/

theorem Leaves.after_setOrder {i : Nat} {o : Order} (h : Leaves r s) : Leaves r (s.setOrder i o) :=
  h.of_quiet rfl rfl rfl rfl rfl (by simp [State.shape]) rfl rfl rfl rfl

theorem Leaves.after_modifyOrder {i : Nat} {f : Order → Order} (h : Leaves r s) :
    Leaves r (s.modifyOrder i f) := by
  unfold State.modifyOrder
  split
  · exact h.after_setOrder
  · exact h

theorem Leaves.after_freeSlot {i : Nat} (h : Leaves r s) : Leaves r (s.freeSlot i) :=
  h.of_quiet rfl rfl rfl rfl rfl (by simp [State.shape]) rfl rfl rfl rfl

theorem Leaves.after_setUnit {id : Nat} {u : PrintUnit} (h : Leaves r s) : Leaves r (s.setUnit id u) :=
  h.of_quiet rfl rfl rfl rfl rfl (by simp [State.shape]) rfl rfl rfl rfl

theorem Leaves.after_modifyUnit {id : Nat} {f : PrintUnit → PrintUnit} (h : Leaves r s) :
    Leaves r (s.modifyUnit id f) := by
  unfold State.modifyUnit
  split
  · exact h.after_setUnit
  · exact h

theorem Leaves.after_signal (h : Leaves r s) : Leaves r s.signal :=
  h.of_quiet rfl rfl rfl rfl rfl rfl rfl rfl rfl rfl

theorem Leaves.after_releaseUnit {id : Nat} (h : Leaves r s) : Leaves r (s.releaseUnit id) :=
  h.of_quiet rfl rfl rfl rfl rfl (by simp [State.shape]) rfl rfl rfl rfl

/-- A fold of operations that each keep, keeps. -/
theorem Leaves.foldl {α : Type} (f : State → α → State)
    (hf : ∀ s a, Leaves r s → Leaves r (f s a)) (l : List α) : ∀ s, Leaves r s → Leaves r (l.foldl f s) := by
  induction l with
  | nil => exact fun _ h => h
  | cons a l ih => exact fun s h => ih _ (hf s a h)

theorem Leaves.after_releaseUnits {ids : List Nat} (h : Leaves r s) : Leaves r (s.releaseUnits ids) :=
  Leaves.foldl _ (fun _ _ h => h.after_releaseUnit) ids s h

theorem Leaves.after_makeUnit {u : PrintUnit} (h : Leaves r s) : Leaves r (s.makeUnit u).2 := by
  unfold State.makeUnit
  split
  · exact h.after_setUnit
  · exact h

theorem Leaves.after_makeUnits {us : List PrintUnit} : ∀ {s : State}, Leaves r s →
    Leaves r (s.makeUnits us).2 := by
  induction us with
  | nil => exact fun h => h
  | cons u rest ih =>
    intro s h
    have hu := h.after_makeUnit (u := u)
    unfold State.makeUnits
    split <;> rename_i heq <;> rw [heq] at hu <;> exact ih hu

theorem Leaves.after_joinTail {cls : OrderClass} {ids : List Nat} (h : Leaves r s) :
    Leaves r (s.joinTail cls ids) := by
  cases cls <;> exact h.of_quiet rfl rfl rfl rfl rfl rfl rfl rfl rfl rfl

theorem Leaves.after_joinHead {cls : OrderClass} {ids : List Nat} (h : Leaves r s) :
    Leaves r (s.joinHead cls ids) := by
  cases cls <;> exact h.of_quiet rfl rfl rfl rfl rfl rfl rfl rfl rfl rfl

theorem Leaves.after_leaveQueue {ids : List Nat} (h : Leaves r s) : Leaves r (s.leaveQueue ids) :=
  h.of_quiet rfl rfl rfl rfl rfl rfl rfl rfl rfl rfl

theorem Leaves.after_oweTrial (h : Leaves r s) : Leaves r s.oweTrial :=
  h.of_quiet rfl rfl rfl rfl rfl rfl rfl rfl rfl rfl

theorem Leaves.after_removeQueued {ids : List Nat} (h : Leaves r s) : Leaves r (s.removeQueued ids) := by
  unfold State.removeQueued
  split
  · exact h
  · exact h.after_leaveQueue.after_releaseUnits.after_oweTrial

theorem Leaves.after_setFigures {i : Nat} {e : Option FigureEntry} (h : Leaves r s) :
    Leaves r (s.setFigures i e) :=
  h.of_quiet rfl rfl rfl rfl rfl (by simp [State.shape]) rfl rfl rfl rfl

theorem Leaves.after_leaveHeldList {i : Nat} (h : Leaves r s) : Leaves r (s.leaveHeldList i) := by
  unfold State.leaveHeldList
  split
  · exact h.of_quiet rfl rfl rfl rfl rfl rfl rfl rfl rfl rfl
  · exact h

theorem Leaves.after_drawn (h : Leaves r s) : Leaves r s.drawn :=
  h.of_quiet rfl rfl rfl rfl rfl rfl rfl rfl rfl rfl

theorem Leaves.after_setSurface {u : Nat} {x : SurfaceCal} (h : Leaves r s) :
    Leaves r (s.setSurface u x) :=
  h.of_quiet rfl rfl rfl rfl rfl (by simp [State.shape]) rfl rfl rfl rfl

theorem Leaves.after_setBin {n : Nat} {b : Bin} (h : Leaves r s) : Leaves r (s.setBin n b) :=
  h.of_quiet rfl rfl rfl rfl rfl (by simp [State.shape]) rfl rfl rfl rfl

/-! ### Flags.lean -/

theorem Notice.raised_wf {n : Notice} (detail : Nat) : (n.raised detail).Wf :=
  ⟨by simp [Notice.raised, satUp], by simp [Notice.raised, satUp], by simp [Notice.raised]⟩

theorem forall_mem_modify {α : Type} {p : α → Prop} {f : α → α} (hf : ∀ a, p (f a)) :
    ∀ (l : List α) (i : Nat), (∀ a ∈ l, p a) → ∀ a ∈ l.modify i f, p a := by
  intro l
  induction l with
  | nil => intro i _ a ha; simp at ha
  | cons x l ih =>
    intro i h a ha
    cases i with
    | zero =>
      simp only [List.modify_zero_cons, List.mem_cons] at ha
      rcases ha with rfl | ha
      · exact hf x
      · exact h a (List.mem_cons_of_mem _ ha)
    | succ i =>
      simp only [List.modify_succ_cons, List.mem_cons] at ha
      rcases ha with rfl | ha
      · exact h _ (List.mem_cons_self ..)
      · exact ih i (fun b hb => h b (List.mem_cons_of_mem _ hb)) a ha

theorem Leaves.after_raise {kind : NoticeKind} {detail : Nat} (h : Leaves r s) :
    Leaves r (s.raise kind detail) :=
  h.trans ⟨rfl, rfl, rfl, rfl, rfl, rfl, rfl, by simp [State.shape],
    fun w => forall_mem_modify (fun _ => Notice.raised_wf detail) _ _ w, id⟩

/-! ### RecordMemory.lean -/

theorem Leaves.after_countCorrection {i : Nat} (h : Leaves r s) : Leaves r (s.countCorrection i) := by
  have k : ∀ n, n ≤ 65535 → Leaves r { s with memory := { s.memory with corrections := n } } := fun n hn =>
    h.trans ⟨rfl, rfl, rfl, rfl, rfl, rfl, rfl, rfl, id, fun _ => hn⟩
  unfold State.countCorrection
  split
  · dsimp only
    split
    · exact (k _ (by omega)).after_raise
    · exact k _ (by omega)
  · exact h

theorem Leaves.after_readWords {i : Nat} {words : List Upset} :
    ∀ (f : AccessFinding) {s : State}, Leaves r s → Leaves r (readWords i words (f, s)).2 := by
  induction words with
  | nil => exact fun _ _ h => h
  | cons u rest ih =>
    intro f s h
    unfold readWords
    have h1 : Leaves r (if decide (3 ≤ u.bits) then s.drawn else s) := by
      split
      · exact h.after_drawn
      · exact h
    dsimp only
    split
    · exact ih _ h1
    · exact ih _ h1.after_countCorrection
    · exact ih _ h1

theorem Leaves.after_dropUpsets {drop : Upset → Bool} (h : Leaves r s) : Leaves r (s.dropUpsets drop) :=
  h.of_quiet rfl rfl rfl rfl rfl rfl rfl rfl rfl rfl

theorem Leaves.after_damageSlot {i : Nat} {o : Order} {lost : Bool} (h : Leaves r s) :
    Leaves r (s.damageSlot i o lost) :=
  h.after_setOrder.after_raise.after_leaveHeldList

theorem Leaves.after_garble {i : Nat} {misread : List RecordWord} {o : Order} (h : Leaves r s) :
    Leaves r (s.garble i misread o).2 := by
  unfold State.garble
  split
  · exact h
  · exact h.of_quiet rfl rfl rfl rfl rfl (by simp [State.shape]) rfl rfl rfl rfl

theorem Leaves.after_garbleFree {i : Nat} {misread : List RecordWord} (h : Leaves r s) :
    Leaves r (s.garbleFree i misread) := by
  unfold State.garbleFree
  split
  · exact h
  · exact h.of_quiet rfl rfl rfl rfl rfl (by simp [State.shape]) rfl rfl rfl rfl

theorem Leaves.after_readSlot {i : Nat} (h : Leaves r s) : Leaves r (readSlot i s) := by
  unfold readSlot
  split
  · exact h
  · split
    · exact h
    · dsimp only
      split
      · exact h
      · have h1 := ((h.after_readWords (i := i) (words := wrongWords (s.memory.upsets.filter fun u => u.slot == i))
          (f := .clean)).after_dropUpsets (drop := fun u => u.slot == i))
        split
        · exact h1.after_garble.after_damageSlot
        · exact h1.after_garble

theorem Leaves.after_readFreeSlot {i : Nat} (h : Leaves r s) : Leaves r (readFreeSlot i s) := by
  unfold readFreeSlot
  split
  · exact h
  · dsimp only
    split
    · exact h
    · have h1 := (h.after_readWords (i := i)
          (words := wrongWords (s.memory.upsets.filter fun u => u.slot == i && u.word == .state))
          (f := .clean)).after_dropUpsets
        (drop := fun u => u.slot == i && u.word == .state)
      split
      · exact h1.after_garbleFree.after_damageSlot
      · exact h1.after_garbleFree

theorem Leaves.after_readSlots {is : List Nat} (h : Leaves r s) : Leaves r (readSlots is s) :=
  Leaves.foldl _ (fun _ _ h => h.after_readSlot) is s h

theorem Leaves.after_walkSlots (h : Leaves r s) : Leaves r (walkSlots s) :=
  Leaves.foldl _ (fun _ _ h => by
    split
    · exact h.after_readSlot
    · exact h.after_readFreeSlot) slotIndexes s h

/-! ### Price.lean -/

theorem Leaves.after_priceSlot {i : Nat} (h : Leaves r s) : Leaves r (priceSlot i s) := by
  unfold priceSlot
  split
  · exact h
  · split
    · exact h
    · split
      · dsimp only
        split
        · split
          · exact h.after_readSlot.after_setOrder
          · exact h.after_readSlot
        · exact h.after_readSlot
      · exact h

theorem Leaves.after_pricingPass (h : Leaves r s) : Leaves r (pricingPass s) :=
  Leaves.foldl _ (fun _ _ h => h.after_priceSlot) slotIndexes s h

theorem Leaves.after_priceCompleted {i : Nat} (h : Leaves r s) : Leaves r (priceCompleted i s) := by
  unfold priceCompleted
  split
  · exact h
  · exact h.after_priceSlot

/-! ### Queue.lean -/

theorem Leaves.after_admit {i : Nat} {o : Order} (h : Leaves r s) : Leaves r (admitOrder i o s) :=
  h.after_setFigures.after_makeUnits.after_joinTail.after_setOrder

theorem Leaves.after_setHeldCause {cause : Option HeldCause} (h : Leaves r s) :
    Leaves r (s.setHeldCause cause) :=
  h.of_quiet rfl rfl rfl rfl rfl rfl rfl rfl rfl rfl

/-- Only the held list of the Order Table is changed. -/
theorem Leaves.after_heldList {l : List Nat} (h : Leaves r s) :
    Leaves r { s with orders := { s.orders with heldList := l } } :=
  h.of_quiet rfl rfl rfl rfl rfl rfl rfl rfl rfl rfl

theorem Leaves.after_heldTrials {n : Nat} : ∀ {s : State}, Leaves r s → Leaves r (heldTrials n s) := by
  induction n with
  | zero => exact fun h => h
  | succ n ih =>
    intro s h
    unfold heldTrials
    split
    · exact h.after_setHeldCause
    · dsimp only
      split
      · split
        · split
          · exact h.after_readSlot.after_setHeldCause
          · exact ih h.after_readSlot.after_heldList.after_setHeldCause.after_admit
        · exact ih h.after_readSlot
      · exact ih h.after_readSlot.after_leaveHeldList
      · exact h.after_readSlot.after_setHeldCause

/-- Only the owed trial and the owed draft comparison of the Order Table are changed. -/
theorem Leaves.after_owed {t d : Bool} (h : Leaves r s) :
    Leaves r { s with orders := { s.orders with trialDue := t, draftCheckDue := d } } :=
  h.of_quiet rfl rfl rfl rfl rfl rfl rfl rfl rfl rfl

theorem Leaves.after_runTrials (h : Leaves r s) : Leaves r (runTrials s) := by
  unfold runTrials
  split
  · exact h.after_heldTrials.after_owed
  · exact h

/-- Only the strip record and the filter of the Calibration Unit are changed. -/
theorem Leaves.after_stripFilter {strip : StripRecord} {filter : Filter} (h : Leaves r s) :
    Leaves r { s with cal := { s.cal with strip := strip, filter := filter } } :=
  h.of_quiet rfl rfl rfl rfl rfl rfl rfl rfl rfl rfl

theorem Leaves.after_stripSpoiled {id : Nat} (h : Leaves r s) : Leaves r (stripSpoiled id s) := by
  unfold stripSpoiled
  split
  · split
    · exact h.after_stripFilter
    · exact h
  · exact h

theorem Leaves.after_spoilReprinted {i : Nat} {o : Order} {u : PrintUnit} (h : Leaves r s) :
    Leaves r (spoilReprinted i o u s) :=
  h.after_makeUnit.after_joinHead.after_setOrder

theorem Leaves.after_spoilMissing {i : Nat} {o : Order} {u : PrintUnit} (h : Leaves r s) :
    Leaves r (spoilMissing i o u s) := by
  unfold spoilMissing
  dsimp only
  split
  · exact h.after_setFigures.after_setOrder.after_raise
  · exact h.after_setOrder.after_raise

theorem Leaves.after_spoilReport {id : Nat} (h : Leaves r s) : Leaves r (spoilReport id s) := by
  unfold spoilReport
  split
  · exact h
  · split
    · exact h
    · dsimp only
      split
      · exact h.after_setUnit.after_stripSpoiled
      · split
        · exact h.after_setUnit
        · split
          · exact h.after_setUnit
          · split
            · exact h.after_setUnit.after_readSlot
            · split
              · split
                · exact h.after_setUnit.after_readSlot.after_spoilReprinted
                · exact h.after_setUnit.after_readSlot.after_spoilMissing
              · exact h.after_setUnit.after_readSlot

theorem Leaves.after_voidGone {u : PrintUnit} (h : Leaves r s) : Leaves r (voidGone u s) := by
  unfold voidGone
  split
  · split
    · dsimp only
      split
      · exact h.after_freeSlot
      · exact h.after_setOrder
    · exact h
  · exact h

theorem Leaves.after_resetSpoil {id : Nat} {acc : (List Nat × List Nat) × State}
    (h : Leaves r acc.2) : Leaves r (resetSpoil id acc).2 := by
  obtain ⟨⟨rush, standard⟩, s⟩ := acc
  unfold resetSpoil
  dsimp only
  split
  · exact h
  · split
    · exact h.after_releaseUnit
    · rename_i u _ _
      have h1 : Leaves r (match u.slot with
          | some i => readSlot i s
          | none => s) := by
        split
        · exact h.after_readSlot
        · exact h
      split
      · exact h1.after_releaseUnit.after_voidGone
      · split
        · exact h1.after_releaseUnit
        · split
          · split
            · exact h1.after_makeUnit.after_releaseUnit.after_setOrder
            · exact h1.after_makeUnit.after_releaseUnit.after_setOrder
          · exact h1.after_releaseUnit

theorem Leaves.after_resetSpoils {ids : List Nat} :
    ∀ {acc : (List Nat × List Nat) × State}, Leaves r acc.2 →
      Leaves r (ids.foldl (fun acc id => resetSpoil id acc) acc).2 := by
  induction ids with
  | nil => exact fun h => h
  | cons id ids ih => exact fun h => ih (Leaves.after_resetSpoil h)

theorem Leaves.after_resetSpoilAll {ids : List Nat} (h : Leaves r s) :
    Leaves r (resetSpoilAll ids s) := by
  have h1 := Leaves.after_resetSpoils (ids := ids) (acc := (([], []), s)) h
  unfold resetSpoilAll
  revert h1
  generalize ids.foldl (fun acc id => resetSpoil id acc) (([], []), s) = made
  exact fun h1 => h1.after_joinHead.after_joinHead

theorem Leaves.after_promoteUnits {i number : Nat} (h : Leaves r s) :
    Leaves r (promoteUnits i number s).2 := by
  unfold promoteUnits
  dsimp only
  split
  · exact h
  · exact h.of_quiet rfl rfl rfl rfl rfl rfl rfl rfl rfl rfl

theorem Leaves.after_removeDamaged (h : Leaves r s) : Leaves r (removeDamaged s) :=
  (Leaves.foldl _ (fun _ _ h => h.after_setFigures) _ _
    h.after_readSlots).after_removeQueued.after_runTrials

theorem Leaves.after_takeGranted {id : Nat} (h : Leaves r s) : Leaves r (takeGranted id s) :=
  h.after_leaveQueue.after_modifyUnit.after_oweTrial

/-- Only the run count of the Exposure Queue is changed. -/
theorem Leaves.after_runCount {n : Nat} (h : Leaves r s) :
    Leaves r { s with queue := { s.queue with runCount := n } } :=
  h.of_quiet rfl rfl rfl rfl rfl rfl rfl rfl rfl rfl

theorem Leaves.after_settleSelection (h : Leaves r s) : Leaves r (settleSelection s).2 := by
  unfold settleSelection
  dsimp only
  split
  · exact h
  · split
    · exact h
    · split
      · exact h.after_takeGranted
      · split
        · exact h
        · split
          · exact h
          · split
            · exact h.after_runCount.after_takeGranted
            · split
              · exact h
              · exact h

theorem Leaves.after_select (h : Leaves r s) : Leaves r (select s).2 :=
  h.after_removeDamaged.after_settleSelection

/-! ### Calibration.lean -/

theorem Leaves.after_dueComparison {u : Nat} (h : Leaves r s) : Leaves r (dueComparison u s) := by
  unfold dueComparison
  dsimp only
  split
  · exact h.after_setSurface
  · exact h.after_setSurface.after_setSurface.after_raise.after_signal

theorem Leaves.after_countPrint {u : Nat} {void : Bool} (h : Leaves r s) :
    Leaves r (countPrint u void s) := by
  unfold countPrint
  dsimp only
  split
  · exact h
  · split
    · exact h.after_setSurface
    · exact h.after_setSurface.after_dueComparison

theorem Leaves.after_dueComparisons {all : Bool} (h : Leaves r s) : Leaves r (dueComparisons all s) :=
  Leaves.foldl _ (fun _ _ h => by
    split
    · exact h.after_dueComparison
    · exact h) _ s h

theorem Leaves.after_setStrip {strip : StripRecord} (h : Leaves r s) : Leaves r (s.setStrip strip) :=
  h.of_quiet rfl rfl rfl rfl rfl rfl rfl rfl rfl rfl

theorem Leaves.after_abandonCalibration {u : Nat} {cause : AbandonCause} (h : Leaves r s) :
    Leaves r (abandonCalibration u cause s) :=
  h.after_setSurface

theorem Leaves.after_stripHandOver {id : Nat} {blind : Bool} (h : Leaves r s) :
    Leaves r (stripHandOver id blind s) := by
  unfold stripHandOver
  split
  · split
    · exact h.after_releaseUnit
    · split
      · exact h.after_setStrip.after_releaseUnit.after_abandonCalibration
      · split
        · exact h.after_setStrip.after_releaseUnit.after_abandonCalibration
        · exact h.after_stripFilter
  · exact h.after_releaseUnit

theorem Leaves.after_resetCalibration (h : Leaves r s) : Leaves r (resetCalibration s) := by
  unfold resetCalibration
  dsimp only
  split
  · exact h.after_stripFilter
  · exact h.after_abandonCalibration.after_stripFilter
  · exact h.after_releaseUnit.after_abandonCalibration.after_stripFilter
  · exact h.after_abandonCalibration.after_stripFilter

end

end Sys2Proof.Machine
end

