-- ==== Sys2Proof/Laws/Keeps.lean ====
section
/-! SUPPORT. What the operations of the engine, the sorter and the train keep: everything `Leaves` names but
the engine and the train, and the bound of the train (`TrainBounded`). Like `Leaves`, each lemma carries the
fact on from an earlier state `r`. -/

namespace Sys2Proof.Machine

/-- What an operation of the print path from `r` to `s` leaves alone and keeps, the train's bound apart. -/
structure Outer (r s : State) : Prop where
  power       : s.power = r.power
  clock       : s.clock = r.clock
  link        : s.link = r.link
  store       : s.store = r.store
  pending     : s.pending = r.pending
  shape       : s.shape = r.shape
  notices     : (∀ n ∈ r.notices.kinds, n.Wf) → ∀ n ∈ s.notices.kinds, n.Wf
  corrections : r.memory.corrections ≤ 65535 → s.memory.corrections ≤ 65535

/-- The same with the train's bound. -/
structure Keeps (r s : State) : Prop extends Outer r s where
  train : TrainBounded r → TrainBounded s

theorem Outer.trans {r s t : State} (h : Outer r s) (k : Outer s t) : Outer r t :=
  ⟨k.power.trans h.power, k.clock.trans h.clock, k.link.trans h.link, k.store.trans h.store,
   k.pending.trans h.pending, k.shape.trans h.shape, fun w => k.notices (h.notices w),
   fun w => k.corrections (h.corrections w)⟩

theorem Leaves.outer {r s : State} (h : Leaves r s) : Outer r s :=
  ⟨h.power, h.clock, h.link, h.store, h.pending, h.shape, h.notices, h.corrections⟩

theorem Keeps.refl (s : State) : Keeps s s := ⟨(Leaves.refl s).outer, id⟩

theorem Keeps.trans {r s t : State} (h : Keeps r s) (k : Keeps s t) : Keeps r t :=
  ⟨h.toOuter.trans k.toOuter, fun w => k.train (h.train w)⟩

/-- The bound of the train rests on the train's length, the hold-reason set, the unit in the engine and
whether the engine is IDLE. -/
theorem TrainBounded.of_eq {s t : State} (h : TrainBounded s)
    (h1 : t.transit.train.length = s.transit.train.length) (h2 : t.engine.holds = s.engine.holds)
    (h3 : t.engine.current = s.engine.current) (h4 : t.engine.state = s.engine.state) :
    TrainBounded t :=
  ⟨by rw [h1]; exact h.length, by rw [h1, h2]; exact h.full, by rw [h1, h3]; exact h.room,
   by rw [h2, h4]; exact h.idle⟩

theorem Leaves.keeps {r s : State} (h : Leaves r s) : Keeps r s :=
  ⟨h.outer, fun w => w.of_eq (by rw [h.transit]) (by rw [h.engine]) (by rw [h.engine])
    (by rw [h.engine])⟩

/-- A chain of operations that `Leaves` covers follows. -/
theorem Keeps.on {r s t : State} (h : Keeps r s) (k : Leaves s t) : Keeps r t := h.trans k.keeps

section
variable {r s : State}

/-! ### Engine fields, magazines and holds -/

theorem Outer.of_engineTransit {e : Engine} {t : Transit} (h : Outer r s) :
    Outer r { s with engine := e, transit := t } :=
  h.trans ⟨rfl, rfl, rfl, rfl, rfl, rfl, id, id⟩

theorem Outer.after_mapEngine {f : Engine → Engine} (h : Outer r s) : Outer r (s.mapEngine f) :=
  h.trans ⟨rfl, rfl, rfl, rfl, rfl, rfl, id, id⟩

theorem Outer.after_mapTransit {f : Transit → Transit} (h : Outer r s) : Outer r (s.mapTransit f) :=
  h.trans ⟨rfl, rfl, rfl, rfl, rfl, rfl, id, id⟩

/-- Engine fields other than the state, the holds and the unit are changed. -/
theorem Keeps.after_mapEngine {f : Engine → Engine} (h : Keeps r s)
    (h1 : (f s.engine).holds = s.engine.holds) (h2 : (f s.engine).current = s.engine.current)
    (h3 : (f s.engine).state = s.engine.state) : Keeps r (s.mapEngine f) :=
  ⟨h.toOuter.after_mapEngine, fun w => (h.train w).of_eq rfl h1 h2 h3⟩

/-- Transit fields other than the train's length are changed. -/
theorem Keeps.after_mapTransit {f : Transit → Transit} (h : Keeps r s)
    (h1 : (f s.transit).train.length = s.transit.train.length) : Keeps r (s.mapTransit f) :=
  ⟨h.toOuter.after_mapTransit, fun w => (h.train w).of_eq h1 rfl rfl rfl⟩

theorem Leaves.after_mapSorter {f : Sorter → Sorter} (h : Leaves r s)
    (h1 : (f s.sorter).bins.length = s.sorter.bins.length) : Leaves r (s.mapSorter f) :=
  h.of_quiet rfl rfl rfl rfl rfl (by simp [State.shape, State.mapSorter, h1]) rfl rfl rfl rfl

theorem Keeps.after_setMag {m : Magazine} {x : MagazineRecord} (h : Keeps r s) :
    Keeps r (s.setMag m x) := by
  cases m <;>
    exact h.trans ⟨⟨rfl, rfl, rfl, rfl, rfl, rfl, id, id⟩, fun w => w.of_eq rfl rfl rfl rfl⟩

theorem HoldSet.put_trainFull {x : HoldSet} {reason : HoldReason} {b : Bool} (h : reason ≠ .trainFull) :
    (x.put reason b).trainFull = x.trainFull := by
  cases reason <;> first | rfl | exact absurd rfl h

theorem HoldSet.put_true_isEmpty {x : HoldSet} {reason : HoldReason} :
    (x.put reason true).isEmpty = false := by
  cases reason <;> simp [HoldSet.put, HoldSet.isEmpty]

theorem State.addHold_holds (s : State) (reason : HoldReason) :
    (s.addHold reason).engine.holds = s.engine.holds.put reason true := by
  unfold State.addHold
  dsimp only
  split <;> rfl

theorem State.addHold_current (s : State) (reason : HoldReason) :
    (s.addHold reason).engine.current = s.engine.current := by
  unfold State.addHold
  dsimp only
  split <;> rfl

theorem State.addHold_not_idle (s : State) (reason : HoldReason) :
    (s.addHold reason).engine.state ≠ .idle := by
  unfold State.addHold
  dsimp only
  split
  · simp
  · assumption

theorem Outer.after_addHold {reason : HoldReason} (h : Outer r s) : Outer r (s.addHold reason) :=
  h.trans ⟨rfl, rfl, rfl, rfl, rfl, rfl, id, id⟩

theorem Keeps.after_addHold {reason : HoldReason} (h : Keeps r s) (hr : reason ≠ .trainFull) :
    Keeps r (s.addHold reason) :=
  ⟨h.toOuter.after_addHold, fun w =>
    ⟨(h.train w).length,
     by rw [State.addHold_holds, HoldSet.put_trainFull hr]; exact (h.train w).full,
     by rw [State.addHold_current]; exact (h.train w).room,
     fun idle => absurd idle (State.addHold_not_idle s reason)⟩⟩

/-! ### The unit in the engine -/

theorem Keeps.after_engineSpoil (h : Keeps r s) : Keeps r (engineSpoil s) := by
  unfold engineSpoil
  split
  · exact h
  · dsimp only
    split
    · exact h.on (Leaves.refl _).after_spoilReport
    · exact (h.on (Leaves.refl _).after_spoilReport).after_mapEngine rfl rfl rfl

theorem Keeps.after_raise {kind : NoticeKind} {d : Nat} (h : Keeps r s) : Keeps r (s.raise kind d) :=
  h.on (Leaves.refl _).after_raise

theorem Keeps.after_beginImageLine {k : Nat} {u : PrintUnit} (h : Keeps r s) :
    Keeps r (beginImageLine k u s) := by
  unfold beginImageLine
  split
  · exact h.after_mapEngine rfl rfl rfl
  · exact h.after_engineSpoil.after_raise.after_mapEngine rfl rfl rfl

theorem Keeps.after_beginLine {phase : Phase} {k : Nat} (h : Keeps r s) :
    Keeps r (beginLine phase k s) := by
  have h1 : Keeps r (s.mapEngine fun e => { e with line := k }) := h.after_mapEngine rfl rfl rfl
  unfold beginLine
  dsimp only
  split
  · exact h1.after_mapEngine rfl rfl rfl
  · exact h1.after_mapEngine rfl rfl rfl
  · exact h1.after_mapEngine rfl rfl rfl
  · exact h1.after_mapEngine rfl rfl rfl
  · split
    · exact h1
    · split
      · exact h1.after_mapEngine rfl rfl rfl
      · split
        · split
          · exact h1.after_mapEngine rfl rfl rfl
          · exact h1.after_mapEngine rfl rfl rfl
        · exact h1.after_beginImageLine

theorem Keeps.after_enterPhase {phase : Phase} (h : Keeps r s) : Keeps r (enterPhase phase s) := by
  have h1 : Keeps r (s.mapEngine fun e => { e with phase := some phase, line := 0 }) :=
    h.after_mapEngine rfl rfl rfl
  unfold enterPhase
  dsimp only
  split
  · exact h1
  · split
    · split
      · exact h1.after_engineSpoil.after_mapEngine rfl rfl rfl
      · exact h1.after_engineSpoil.after_beginLine
    · split
      · exact h1.after_mapEngine rfl rfl rfl
      · exact h1.after_beginLine

theorem Leaves.after_reportStart {u : PrintUnit} {b : Bool} (h : Leaves r s) :
    Leaves r (reportStart u b s) := by
  unfold reportStart
  split
  · exact h.after_setOrder
  · exact h

theorem Keeps.after_completeStart {id : Nat} (h : Keeps r s) : Keeps r (completeStart id s) := by
  unfold completeStart
  split
  · exact h
  · rename_i u _
    dsimp only
    have h1 : Keeps r (match u.slot with
        | some i => readSlot i s
        | none => s) := by
      split
      · exact h.on (Leaves.refl _).after_readSlot
      · exact h
    split
    · refine Keeps.after_enterPhase (Keeps.on ?_ (Leaves.refl _).after_reportStart)
      refine Keeps.after_mapEngine (Keeps.after_setMag (Keeps.on h1 ?_)) rfl rfl rfl
      exact (Leaves.refl _).after_setUnit
    · refine Keeps.on ?_ (Leaves.refl _).after_reportStart
      refine Keeps.after_mapEngine (Keeps.after_setMag (Keeps.on h1 ?_)) rfl rfl rfl
      exact (Leaves.refl _).after_setUnit

/-- A start joins the engine from IDLE, when the train has room. -/
theorem Keeps.after_beginStart {id : Nat} (h : Keeps r s) (idle : s.engine.state = .idle) :
    Keeps r (beginStart id s) := by
  have h1 : Keeps r (s.mapEngine fun e => { e with
      state := .exposing, phase := none, current := some id, line := 0, handle := 0, head := .unlit
      buffer1 := .empty, buffer2 := .empty, firstLineTimer := false }) := by
    refine ⟨h.toOuter.after_mapEngine, fun w => ?_⟩
    have k := h.train w
    refine ⟨k.length, k.full, fun _ => ?_, fun e => nomatch e⟩
    have empty := k.idle idle
    have full := k.full
    have len := k.length
    simp only [HoldSet.isEmpty, Bool.not_eq_true', Bool.or_eq_false_iff] at empty
    rw [empty.1.2] at full
    have : s.transit.train.length ≠ Config.trainLimit := by simpa using full.symm
    show s.transit.train.length < Config.trainLimit
    omega
  unfold beginStart
  dsimp only
  split
  · exact h1.after_mapEngine rfl rfl rfl
  · exact h1.after_completeStart

/-! ### Changes and boundaries -/

theorem Keeps.after_startSwitchTimer (h : Keeps r s) : Keeps r (startSwitchTimer s) :=
  h.after_mapEngine rfl rfl rfl

/-- The engine's state becomes another than IDLE. -/
theorem Keeps.after_mapEngine_busy {f : Engine → Engine} (h : Keeps r s)
    (h1 : (f s.engine).holds = s.engine.holds) (h2 : (f s.engine).current = s.engine.current)
    (h3 : (f s.engine).state ≠ .idle) : Keeps r (s.mapEngine f) :=
  ⟨h.toOuter.after_mapEngine, fun w =>
    ⟨(h.train w).length, by show (f s.engine).holds.trainFull = _; rw [h1]; exact (h.train w).full,
     by show (f s.engine).current.isSome = true → _; rw [h2]; exact (h.train w).room,
     fun idle => absurd idle h3⟩⟩

theorem Keeps.after_beginChange (h : Keeps r s) : Keeps r (beginChange s) := by
  have h1 : Keeps r (s.mapEngine fun e => { e with state := .switching, selectPending := false }) :=
    h.after_mapEngine_busy rfl rfl (by simp)
  unfold beginChange
  dsimp only
  split
  · exact h1.after_mapEngine rfl rfl rfl
  · exact h1.after_startSwitchTimer

theorem select_engine (s : State) : (select s).2.engine = s.engine :=
  (Leaves.after_select (Leaves.refl s)).engine

theorem Keeps.after_makeSelection (h : Keeps r s) (idle : s.engine.state = .idle) :
    Keeps r (makeSelection s) := by
  have h1 : Keeps r (s.mapEngine fun e => { e with selectionWaiting := false }) :=
    h.after_mapEngine rfl rfl rfl
  have h2 := h1.on (Leaves.after_select (Leaves.refl _))
  have h3 := select_engine (s.mapEngine fun e => { e with selectionWaiting := false })
  unfold makeSelection
  dsimp only
  split
  · exact h2.after_beginStart (by rw [h3]; exact idle)
  · exact h2.after_beginChange
  · exact h2

theorem Keeps.after_boundary (h : Keeps r s) : Keeps r (boundary s) := by
  unfold boundary
  split
  · rename_i empty
    have h1 : Keeps r (s.mapEngine fun e => { e with state := .idle }) :=
      ⟨h.toOuter.after_mapEngine, fun w =>
        ⟨(h.train w).length, (h.train w).full, (h.train w).room, fun _ => empty⟩⟩
    dsimp only
    split
    · exact h1.after_mapEngine rfl rfl rfl
    · exact h1.after_makeSelection rfl
  · exact h.after_mapEngine_busy rfl rfl (by simp)

/-- A hold reason's removal, when it leaves the set in step with the train. -/
theorem Keeps.after_removeHold_of {reason : HoldReason} (h : Outer r s)
    (ht : TrainBounded r → TrainBounded (s.mapEngine fun e => { e with holds := e.holds.put reason false })) :
    Keeps r (removeHold reason s) := by
  have h1 : Keeps r (s.mapEngine fun e => { e with holds := e.holds.put reason false }) :=
    ⟨h.after_mapEngine, ht⟩
  unfold removeHold
  dsimp only
  split
  · exact h1.after_boundary
  · exact h1

theorem HoldSet.put_false_isEmpty {x : HoldSet} {reason : HoldReason} (h : x.isEmpty = true) :
    (x.put reason false).isEmpty = true := by
  cases reason <;> simp_all [HoldSet.put, HoldSet.isEmpty]

theorem Keeps.after_removeHold {reason : HoldReason} (h : Keeps r s) (hr : reason ≠ .trainFull) :
    Keeps r (removeHold reason s) :=
  Keeps.after_removeHold_of h.toOuter fun w =>
    ⟨(h.train w).length,
     by
      show (s.engine.holds.put reason false).trainFull = _
      rw [HoldSet.put_trainFull hr]; exact (h.train w).full,
     (h.train w).room, fun idle => HoldSet.put_false_isEmpty ((h.train w).idle idle)⟩

theorem Keeps.after_answerSignal (h : Keeps r s) : Keeps r (answerSignal s) := by
  unfold answerSignal
  split
  · exact h.after_boundary
  · exact h

/-- Only the queue's signal is changed. -/
theorem Leaves.after_setSignal {b : Bool} (h : Leaves r s) :
    Leaves r { s with queue := { s.queue with signal := b } } :=
  h.of_quiet rfl rfl rfl rfl rfl rfl rfl rfl rfl rfl

theorem Keeps.after_settle (h : Keeps r s) : Keeps r (settle s) :=
  ((h.on (Leaves.refl _).after_runTrials).after_answerSignal.on (Leaves.refl _).after_runTrials).on
    (Leaves.refl _).after_setSignal

/-! ### Lines and the hand-over -/

theorem Keeps.after_handOver {id : Nat} {u : PrintUnit} (h : Keeps r s)
    (unit : s.engine.current.isSome = true) (busy : s.engine.state ≠ .idle) :
    Keeps r (handOver id u s) := by
  unfold handOver
  dsimp only
  generalize hentry : (⟨id, s.transit.path, if s.cycleRuns then none
    else some (cutFigures s.store.general s.transit.path)⟩ : TrainEntry) = entry
  generalize hs1 : ({ s with transit := { s.transit with train := s.transit.train ++ [entry] } } : State) = s1
  have o1 : Outer r s1 := by
    rw [← hs1]; exact h.toOuter.of_engineTransit (e := s.engine)
  generalize hs3 : (if u.kind = .strip ∨ u.spoiled = true then
      s1.modifyUnit id fun u => { u with place := .train }
    else countPrint u.surface u.void (s1.modifyUnit id fun u => { u with place := .train })) = s3
  have l3 : Leaves s1 s3 := by
    rw [← hs3]
    split
    · exact (Leaves.refl _).after_modifyUnit
    · exact (Leaves.refl _).after_modifyUnit.after_countPrint
  have o3 : Outer r s3 := o1.trans l3.outer
  have ht : s3.transit.train.length = s.transit.train.length + 1 := by
    rw [l3.transit, ← hs1]; simp
  have he : s3.engine = s.engine := by rw [l3.engine, ← hs1]
  apply Keeps.after_boundary
  refine ⟨?_, fun w => ?_⟩
  · split
    · exact o3.after_addHold.after_mapEngine
    · exact o3.after_mapEngine
  · have k := h.train w
    have room := k.room unit
    have full := k.full
    have hne : s.transit.train.length ≠ Config.trainLimit := by omega
    split
    · rename_i hfull
      refine ⟨by show s3.transit.train.length ≤ _; omega, ?_, fun e => (nomatch e),
        fun idle => absurd idle (State.addHold_not_idle s3 _)⟩
      show (s3.addHold .trainFull).engine.holds.trainFull = decide (s3.transit.train.length = _)
      rw [State.addHold_holds, hfull]; simp [HoldSet.put]
    · rename_i hfull
      refine ⟨by show s3.transit.train.length ≤ _; omega, ?_, fun e => (nomatch e), fun idle => ?_⟩
      · show s3.engine.holds.trainFull = decide (s3.transit.train.length = _)
        rw [he, full]; simp [hne, hfull]
      · exact absurd idle (by show s3.engine.state ≠ .idle; rw [he]; exact busy)

theorem Keeps.after_endLine (h : Keeps r s) : Keeps r (endLine s) := by
  unfold endLine
  split
  · rename_i id u hp hu
    split
    · rename_i hb
      have h1 : Keeps r (s.mapEngine fun e => { e with advances := e.advances + 1 }) :=
        h.after_mapEngine rfl rfl rfl
      dsimp only
      split
      · exact h1.after_beginLine
      · split
        · exact h1.after_enterPhase
        · refine h1.after_handOver ?_ (by show s.engine.state ≠ _; rw [hb.1]; simp)
          show s.engine.current.isSome = true
          unfold State.inEngine at hu
          cases hc : s.engine.current
          · rw [hc] at hu; cases hu
          · rfl
    · exact h
  · exact h

theorem Engine.fill_same (e : Engine) (line : Nat) (pixels : List Pixel) :
    (e.fill line pixels).holds = e.holds ∧ (e.fill line pixels).current = e.current ∧
      (e.fill line pixels).state = e.state := by
  unfold Engine.fill
  split
  · exact ⟨rfl, rfl, rfl⟩
  · split <;> exact ⟨rfl, rfl, rfl⟩

theorem Keeps.after_takeDelivery {unit line : Nat} {pixels : List Pixel} (h : Keeps r s) :
    Keeps r (takeDelivery unit line pixels s) := by
  have hf := Engine.fill_same s.engine line pixels
  unfold takeDelivery
  split
  · have h1 : Keeps r (s.mapEngine fun e => e.fill line pixels) :=
      h.after_mapEngine hf.1 hf.2.1 hf.2.2
    dsimp only
    split
    · exact (h1.after_mapEngine rfl rfl rfl).after_beginLine
    · exact h1
  · exact h.after_mapEngine rfl rfl rfl

theorem Keeps.after_firstLineExpired (h : Keeps r s) : Keeps r (firstLineExpired s) := by
  unfold firstLineExpired
  split
  · split
    · exact h.after_engineSpoil.after_raise
    · exact h
  · exact h

theorem Keeps.after_lampExpired (h : Keeps r s) : Keeps r (lampExpired s) := by
  unfold lampExpired
  split
  · have h1 := (h.after_mapEngine (f := fun e => { e with lampTimer := false }) rfl rfl rfl
      ).after_addHold (reason := .lampLow) (by simp)
    dsimp only
    split
    · exact h1.after_engineSpoil.after_raise
    · exact h1.after_raise
  · exact h

theorem Keeps.after_paperOut {m : Magazine} {x : MagazineRecord} (h : Keeps r s) :
    Keeps r (paperOut m x s) := by
  unfold paperOut
  dsimp only
  split
  · exact h.after_setMag.after_raise.after_engineSpoil
  · exact h.after_setMag.after_raise

/-! ### The sorter -/

theorem Leaves.after_selectGate {g : Gate} (h : Leaves r s) : Leaves r (s.selectGate g) :=
  h.after_mapSorter rfl

theorem Leaves.after_rejectPrint (h : Leaves r s) : Leaves r (rejectPrint s) :=
  h.after_selectGate.after_mapSorter rfl

theorem Leaves.after_unclaimedPrint (h : Leaves r s) : Leaves r (unclaimedPrint s) :=
  h.after_selectGate.after_mapSorter rfl

theorem Leaves.after_placeGood {i : Nat} {o : Order} (h : Leaves r s) : Leaves r (placeGood i o s) := by
  have spill : Leaves r (((s.selectGate .overflow).mapSorter fun b =>
      { b with overflow := satUp b.overflow 65535 }).setOrder i
      { o.deliver with trayCount := o.trayCount + 1, spill := true }) :=
    (h.after_selectGate.after_mapSorter rfl).after_setOrder
  unfold placeGood
  dsimp only
  split
  · split
    · exact h.after_selectGate.after_setBin.after_setOrder
    · exact spill
  · split
    · exact h.after_selectGate.after_setBin.after_setOrder
    · exact spill

theorem Leaves.after_completeIfDone {i : Nat} (h : Leaves r s) : Leaves r (completeIfDone i s) := by
  unfold completeIfDone
  split
  · split
    · dsimp only
      split
      · exact h.after_setOrder.after_setBin.after_priceCompleted
      · exact h.after_setOrder.after_priceCompleted
    · exact h
  · exact h

theorem Leaves.after_routeCut {id : Nat} {blind : Bool} (h : Leaves r s) :
    Leaves r (routeCut id blind s) := by
  unfold routeCut
  split
  · exact h
  · rename_i u _
    split
    · exact h.after_rejectPrint.after_stripHandOver
    · dsimp only
      apply Leaves.after_releaseUnit
      have h1 : Leaves r (match u.slot with
          | some i => readSlot i s
          | none => s) := by
        split
        · exact h.after_readSlot
        · exact h
      split
      · exact h1.after_rejectPrint.after_voidGone
      · split
        · exact h1.after_rejectPrint
        · split
          · exact h1.after_placeGood.after_completeIfDone
          · exact h1.after_unclaimedPrint

theorem Leaves.after_handBack {n : Nat} (h : Leaves r s) : Leaves r (handBack n s) := h.after_setBin

theorem Leaves.after_freeBin {n : Nat} (h : Leaves r s) : Leaves r (freeBin n s) := h.after_setBin

theorem Leaves.after_settleKeys {i : Nat} {o : Order} (h : Leaves r s) : Leaves r (settleKeys i o s) := by
  unfold settleKeys
  split
  · exact h.after_freeSlot
  · exact h.after_setOrder

theorem Leaves.after_collectByDoor {n : Nat} (h : Leaves r s) : Leaves r (collectByDoor n s) := by
  unfold collectByDoor
  dsimp only
  split
  · exact h.after_setBin
  · split
    · split
      · exact h.after_readSlot.after_freeBin.after_settleKeys
      · exact h.after_readSlot.after_setBin
    · exact h.after_readSlot.after_setBin

theorem Leaves.after_doorOpens {n : Nat} (h : Leaves r s) : Leaves r (doorOpens n s) := by
  unfold doorOpens
  dsimp only
  split
  · exact h
  · split
    · exact h.after_setBin.after_readSlot.after_modifyOrder.after_raise
    · exact h.after_setBin.after_raise
    · exact h.after_setBin

theorem Leaves.after_doorCloses {n : Nat} (h : Leaves r s) : Leaves r (doorCloses n s) := by
  unfold doorCloses
  dsimp only
  split
  · exact h
  · split
    · split
      · exact h.after_setBin.after_collectByDoor
      · exact h.after_setBin
    · exact h.after_setBin.after_freeBin
    · exact h.after_setBin

/-! ### The train -/

/-- The head leaves a train that holds one, and TRAIN_FULL goes with it. -/
theorem Keeps.after_headLeaves (h : Keeps r s) (held : s.transit.train ≠ []) :
    Keeps r (headLeaves s) := by
  unfold headLeaves
  refine Keeps.after_removeHold_of h.toOuter.after_mapTransit fun w => ?_
  have k := h.train w
  have hpos : 0 < s.transit.train.length := List.length_pos_iff.mpr held
  have hlen : s.transit.train.tail.length = s.transit.train.length - 1 := List.length_tail
  have hle := k.length
  refine ⟨?_, ?_, fun _ => ?_, fun idle => HoldSet.put_false_isEmpty (k.idle idle)⟩
  · show s.transit.train.tail.length ≤ _
    omega
  · show false = decide (s.transit.train.tail.length = Config.trainLimit)
    have hne : s.transit.train.tail.length ≠ Config.trainLimit := by omega
    exact (decide_eq_false hne).symm
  · show s.transit.train.tail.length < _
    omega

theorem Keeps.after_normalCut {e : TrainEntry} (h : Keeps r s) (held : s.transit.train ≠ []) :
    Keeps r (normalCut e s) := by
  unfold normalCut
  have h1 : Keeps r (s.mapTransit fun t =>
      { t with cutterCommands := t.cutterCommands + 1, consecutiveBlind := 0 }) :=
    h.after_mapTransit rfl
  exact (h1.after_headLeaves held).on (Leaves.refl _).after_routeCut

theorem Keeps.after_countBlind {id : Nat} (h : Keeps r s) : Keeps r (countBlind id s) := by
  have h1 : Keeps r (s.mapTransit fun t => { t with consecutiveBlind := satUp t.consecutiveBlind 255 }) :=
    h.after_mapTransit rfl
  unfold countBlind
  dsimp only
  split
  · exact (h1.after_addHold (by simp)).after_raise
  · exact h1

theorem countBlind_train (id : Nat) (s : State) : (countBlind id s).transit.train = s.transit.train := by
  unfold countBlind
  dsimp only
  split <;> rfl

theorem Keeps.after_blindCut {e : TrainEntry} (h : Keeps r s) (held : s.transit.train ≠ []) :
    Keeps r (blindCut e s) := by
  unfold blindCut
  have h1 : Keeps r (s.mapTransit fun t => { t with cutterCommands := t.cutterCommands + 1 }) :=
    h.after_mapTransit rfl
  have h2 := (h1.on (Leaves.after_spoilReport (id := e.unit) (Leaves.refl _))).after_countBlind (id := e.unit)
  have h3 := h2.after_mapTransit
    (f := fun t => { t with blindCuts := satUp t.blindCuts 65535 }) rfl
  refine (h3.after_headLeaves ?_).on (Leaves.refl _).after_routeCut
  show (countBlind _ _).transit.train ≠ []
  rw [countBlind_train, (Leaves.refl _).after_spoilReport.transit]
  exact held

theorem Keeps.after_expireHeads {n : Nat} : ∀ {s : State}, Keeps r s → Keeps r (expireHeads n s) := by
  induction n with
  | zero => exact fun h => h
  | succ n ih =>
    intro s h
    unfold expireHeads
    split
    · exact h
    · rename_i e rest heq
      split
      · exact ih (h.after_blindCut (by rw [heq]; simp))
      · exact h

theorem Keeps.after_expireAll (h : Keeps r s) : Keeps r (expireAll s) := h.after_expireHeads

theorem Keeps.after_decideMark {p : Word32} (h : Keeps r s) : Keeps r (decideMark p s) := by
  unfold decideMark
  split
  · exact h.after_mapTransit rfl
  · rename_i e rest heq
    split
    · exact h.after_mapTransit rfl
    · split
      · exact h.after_normalCut (by rw [heq]; simp)
      · exact h.after_mapTransit rfl

theorem Keeps.after_takeMark (h : Keeps r s) : Keeps r (takeMark s) := by
  have h1 : Keeps r (if headPast s then expireAll s else s) := by
    split
    · exact h.after_expireAll
    · exact h
  unfold takeMark
  generalize (if headPast s then expireAll s else s) = s1 at h1 ⊢
  dsimp only
  split
  · exact h1.after_decideMark.after_expireAll
  · exact h1.after_decideMark

theorem Keeps.foldl {α : Type} (f : State → α → State)
    (hf : ∀ s a, Keeps r s → Keeps r (f s a)) (l : List α) : ∀ s, Keeps r s → Keeps r (l.foldl f s) := by
  induction l with
  | nil => exact fun _ h => h
  | cons a l ih => exact fun s h => ih _ (hf s a h)

theorem Keeps.after_setPendingFigures (h : Keeps r s) : Keeps r (setPendingFigures s) :=
  (Keeps.foldl _ (fun _ _ h => h.after_decideMark) _ _
    (h.after_mapTransit (List.length_map ..))).after_expireAll

end

end Sys2Proof.Machine
end

