-- ==== Sys2Proof/Laws/Lookups.lean ====
section
/-! SUPPORT. What the shared operations of a request do when nothing stands in the way: accesses to storage
with no wrong bit, the lookup of a named order, the end of a step with nothing owed, and an answer's
conclusion. -/

namespace Sys2Proof.Machine

/-! ### Storage with no wrong bit (R177) -/

@[simp] theorem wrongWords_nil : wrongWords [] = [] := rfl

@[simp] theorem wrongWords_single (u : Upset) : wrongWords [u] = [u] := rfl

/-- Two upsets of one word are one wrong word with the bits of both (log entry 31). -/
theorem addUpset_same {u v : Upset} (h : v.slot = u.slot ∧ v.word = u.word) (rest : List Upset) :
    addUpset u (v :: rest) = { v with bits := v.bits + u.bits } :: rest := by
  simp [addUpset, h]

theorem readSlot_clean {s : State} (clean : CleanStorage s) (i : Nat) : readSlot i s = s := by
  unfold readSlot
  split
  · rfl
  · split
    · rfl
    · simp [show s.memory.upsets = [] from clean]

theorem readFreeSlot_clean {s : State} (clean : CleanStorage s) (i : Nat) : readFreeSlot i s = s := by
  unfold readFreeSlot
  split
  · rfl
  · simp [show s.memory.upsets = [] from clean]

theorem readHeldHead_clean {s : State} (clean : CleanStorage s) (held : List Nat) : readHeldHead held s = s := by
  induction held with
  | nil => rfl
  | cons i rest ih => simp [readHeldHead, readSlot_clean clean, ih]

theorem answerQueue_clean {s : State} (clean : CleanStorage s) (start : Nat) (order : Option (Nat × Nat)) :
    answerQueue start order s = okay (queueItems s start order) s := by
  simp [answerQueue, readHeldHead_clean clean]

/-- With no word misread an access uses the slot as it stands. -/
@[simp] theorem State.garble_nil (s : State) (i : Nat) (o : Order) : s.garble i [] o = (o, s) := rfl

@[simp] theorem State.garbleFree_nil (s : State) (i : Nat) : s.garbleFree i [] = s := rfl

@[simp] theorem misreadOrder_number (words : List RecordWord) (spelled o : Order) :
    (misreadOrder words spelled o).number = if words.contains .number then spelled.number else o.number := rfl

@[simp] theorem misreadOrder_state (words : List RecordWord) (spelled o : Order) :
    (misreadOrder words spelled o).state = if words.contains .state then spelled.state else o.state := rfl

theorem readSlots_clean {s : State} (clean : CleanStorage s) (is : List Nat) : readSlots is s = s := by
  induction is with
  | nil => rfl
  | cons i is ih => simpa [readSlots, readSlot_clean clean] using ih

/-! ### The end of a step, and an answer (R13, R48, R162) -/

theorem runTrials_none {s : State} (h : s.orders.trialDue = false) : runTrials s = s := by
  simp [runTrials, h]

/-- With no signal and no held trial owed, the end of a step changes nothing. -/
theorem settle_calm {s : State} (hs : s.queue.signal = false) (ht : s.orders.trialDue = false) :
    settle s = s := by
  have h1 : answerSignal s = s := by simp [answerSignal, hs]
  have h2 : ({ s with queue := { s.queue with signal := false } } : State) = s := by rw [← hs]
  simp only [settle, runTrials_none ht, h1, h2]

/-- With no held trial owed and the engine not IDLE, the end of a step only takes the signal back. -/
theorem settle_busy {s : State} (ht : s.orders.trialDue = false) (hb : s.engine.state ≠ .idle) :
    settle s = { s with queue := { s.queue with signal := false } } := by
  have h1 : runTrials s = s := runTrials_none ht
  have h2 : answerSignal s = s := by simp [answerSignal, hb]
  simp only [settle, h1, h2]

theorem conclude_answer (h : Header) (r : Request) (q : Nat) (status : Status) (body : List Byte)
    (s : State) : conclude h false r q (.answer status body, s) = s.answered h r status body := rfl

theorem serve_accepts {s : State} (ok : s.accepts = true) (h : Header) (r : Request)
    (d : State → Reply × State) :
    serve h r d s = conclude h false r s.link.queue.length (d s) := by simp [serve, ok]

theorem serveActing_accepts {s : State} (ok : s.accepts = true) (h : Header) (r : Request)
    (d : State → Reply × State) :
    serveActing h r d s = settle (conclude h false r s.link.queue.length (d s)) := by
  simp [serveActing, ok]

/-- An answer to a request that owes nothing ends its step. -/
theorem settle_answered {s : State} {h : Header} {r : Request} {status : Status} {body : List Byte}
    (hs : s.queue.signal = false) (ht : s.orders.trialDue = false) :
    settle (s.answered h r status body) = s.answered h r status body := settle_calm hs ht

/-! ### The lookup of a named order (R5, R11) -/

theorem lookUp_none {s : State} {n : Nat} {touch : Bool} (h : s.findOrder n = none) :
    lookUp n touch s = (.noOrder, s) := by simp [lookUp, h]

/-- A named order that is not a DRAFT, or that is not touched, is found as it stands. -/
theorem lookUp_plain {s : State} {n i : Nat} {o : Order} {touch : Bool} (clean : CleanStorage s)
    (named : Names s n i o) (h : touch = false ∨ o.state ≠ .draft) :
    lookUp n touch s = (.order i o, s) := by
  have h2 : ¬(touch = true ∧ o.state = .draft) := by
    rintro ⟨a, b⟩
    rcases h with h | h
    · simp [h] at a
    · exact h b
  simp [lookUp, named.found, readSlot_clean clean, named.held, named.sound, h2]

/-- A named DRAFT is found with its idle seconds set to 0. -/
theorem lookUp_draft {s : State} {n i : Nat} {o : Order} (clean : CleanStorage s)
    (named : Names s n i o) (h : o.state = .draft) :
    lookUp n true s = (.order i { o with idle := 0 }, s.setOrder i { o with idle := 0 }) := by
  simp [lookUp, named.found, readSlot_clean clean, named.held, h]

theorem State.setOrder_setOrder (s : State) (i : Nat) (a b : Order) :
    (s.setOrder i a).setOrder i b = s.setOrder i b := by
  simp [State.setOrder]

end Sys2Proof.Machine
end

