-- ==== Sys2Proof/Laws/PerInstr.lean ====
section
/-! SUPPORT. The per-command family `Catalogue`: a request row is well-formed exactly when its header and its
request are, and its code is one of the catalogue's 42 (R160, R167); an event row carries no request. -/

namespace Sys2Proof.Laws.Catalogue

open Sys2Proof Sys2Proof.Machine

/-- What the family says of a command. -/
def Statement (i : Instr) : Prop :=
  ∀ (h : Header) (r : Request), i.request? = some (h, r) →
    i.wf = (h.wf && r.wf) ∧ isRequestCode (requestCode r) = true

theorem coldStart (sensed : Sensed) : Statement (.coldStart sensed) := nofun
theorem retainedStart (sensed : Sensed) (upsets : List Upset) : Statement (.retainedStart sensed upsets) :=
  nofun
theorem resetInputAsserted : Statement .resetInputAsserted := nofun
theorem warmResetEffect (magA magB : SensedMagazine) : Statement (.warmResetEffect magA magB) := nofun
theorem frameReceived (line : List Byte) : Statement (.frameReceived line) := nofun
theorem linkCharacterError : Statement .linkCharacterError := nofun
theorem frameOversize : Statement .frameOversize := nofun
theorem requestTaken : Statement .requestTaken := nofun
theorem responseSent : Statement .responseSent := nofun
theorem openOrder (h : Header) (cls : Nat) (promise : Option Nat) (customerTag : Option (List Byte)) :
    Statement (.openOrder h cls promise customerTag) := by
  rintro _ _ ⟨⟩; exact ⟨rfl, rfl⟩
theorem addLine (h : Header) (number : Nat) (line : LineItem) : Statement (.addLine h number line) := by
  rintro _ _ ⟨⟩; exact ⟨rfl, rfl⟩
theorem changeLine (h : Header) (number position : Nat) (line : LineItem) :
    Statement (.changeLine h number position line) := by
  rintro _ _ ⟨⟩; exact ⟨rfl, rfl⟩
theorem dropLine (h : Header) (number position : Nat) : Statement (.dropLine h number position) := by
  rintro _ _ ⟨⟩; exact ⟨rfl, rfl⟩
theorem submit (h : Header) (number : Nat) : Statement (.submit h number) := by
  rintro _ _ ⟨⟩; exact ⟨rfl, rfl⟩
theorem withdraw (h : Header) (number : Nat) : Statement (.withdraw h number) := by
  rintro _ _ ⟨⟩; exact ⟨rfl, rfl⟩
theorem cancel (h : Header) (number : Nat) : Statement (.cancel h number) := by
  rintro _ _ ⟨⟩; exact ⟨rfl, rfl⟩
theorem readOrder (h : Header) (number : Nat) : Statement (.readOrder h number) := by
  rintro _ _ ⟨⟩; exact ⟨rfl, rfl⟩
theorem findOrders (h : Header) (selector : Selector) (start : Nat) :
    Statement (.findOrders h selector start) := by
  rintro _ _ ⟨⟩; exact ⟨rfl, rfl⟩
theorem setClock (h : Header) (minute second : Nat) : Statement (.setClock h minute second) := by
  rintro _ _ ⟨⟩; exact ⟨rfl, rfl⟩
theorem readClock (h : Header) : Statement (.readClock h) := by rintro _ _ ⟨⟩; exact ⟨rfl, rfl⟩
theorem retryFault (h : Header) (number : Nat) : Statement (.retryFault h number) := by
  rintro _ _ ⟨⟩; exact ⟨rfl, rfl⟩
theorem promote (h : Header) (number : Nat) : Statement (.promote h number) := by
  rintro _ _ ⟨⟩; exact ⟨rfl, rfl⟩
theorem readQueue (h : Header) (start : Nat) (number : Option Nat) :
    Statement (.readQueue h start number) := by
  rintro _ _ ⟨⟩; exact ⟨rfl, rfl⟩
theorem halt (h : Header) : Statement (.halt h) := by rintro _ _ ⟨⟩; exact ⟨rfl, rfl⟩
theorem resume (h : Header) : Statement (.resume h) := by rintro _ _ ⟨⟩; exact ⟨rfl, rfl⟩
theorem selectMagazine (h : Header) : Statement (.selectMagazine h) := by rintro _ _ ⟨⟩; exact ⟨rfl, rfl⟩
theorem loadMagazine (h : Header) (magazine metres : Nat) :
    Statement (.loadMagazine h magazine metres) := by
  rintro _ _ ⟨⟩; exact ⟨rfl, rfl⟩
theorem lutWrite (h : Header) (bank channel start : Nat) (levels : List Nat) :
    Statement (.lutWrite h bank channel start levels) := by
  rintro _ _ ⟨⟩; exact ⟨rfl, rfl⟩
theorem lutSwitch (h : Header) : Statement (.lutSwitch h) := by rintro _ _ ⟨⟩; exact ⟨rfl, rfl⟩
theorem readEngine (h : Header) : Statement (.readEngine h) := by rintro _ _ ⟨⟩; exact ⟨rfl, rfl⟩
theorem clearFault (h : Header) (clearCounts : Option Bool) : Statement (.clearFault h clearCounts) := by
  rintro _ _ ⟨⟩; exact ⟨rfl, rfl⟩
theorem readTrain (h : Header) (place : Nat) : Statement (.readTrain h place) := by
  rintro _ _ ⟨⟩; exact ⟨rfl, rfl⟩
theorem collect (h : Header) (number : Nat) : Statement (.collect h number) := by
  rintro _ _ ⟨⟩; exact ⟨rfl, rfl⟩
theorem readBins (h : Header) : Statement (.readBins h) := by rintro _ _ ⟨⟩; exact ⟨rfl, rfl⟩
theorem emptyTrays (h : Header) (selection : Nat) : Statement (.emptyTrays h selection) := by
  rintro _ _ ⟨⟩; exact ⟨rfl, rfl⟩
theorem quote (h : Header) (number : Nat) : Statement (.quote h number) := by rintro _ _ ⟨⟩; exact ⟨rfl, rfl⟩
theorem pay (h : Header) (number amount : Nat) : Statement (.pay h number amount) := by
  rintro _ _ ⟨⟩; exact ⟨rfl, rfl⟩
theorem startCal (h : Header) (surface : Nat) : Statement (.startCal h surface) := by
  rintro _ _ ⟨⟩; exact ⟨rfl, rfl⟩
theorem waiveCal (h : Header) (surface : Nat) : Statement (.waiveCal h surface) := by
  rintro _ _ ⟨⟩; exact ⟨rfl, rfl⟩
theorem readCal (h : Header) (surface : Nat) : Statement (.readCal h surface) := by
  rintro _ _ ⟨⟩; exact ⟨rfl, rfl⟩
theorem linkSetup (h : Header) (address lab : Option Nat) : Statement (.linkSetup h address lab) := by
  rintro _ _ ⟨⟩; exact ⟨rfl, rfl⟩
theorem reset (h : Header) : Statement (.reset h) := by rintro _ _ ⟨⟩; exact ⟨rfl, rfl⟩
theorem readLink (h : Header) : Statement (.readLink h) := by rintro _ _ ⟨⟩; exact ⟨rfl, rfl⟩
theorem readViolation (h : Header) : Statement (.readViolation h) := by rintro _ _ ⟨⟩; exact ⟨rfl, rfl⟩
theorem clearViolation (h : Header) : Statement (.clearViolation h) := by rintro _ _ ⟨⟩; exact ⟨rfl, rfl⟩
theorem readNotices (h : Header) : Statement (.readNotices h) := by rintro _ _ ⟨⟩; exact ⟨rfl, rfl⟩
theorem clearNotice (h : Header) (kind : Nat) : Statement (.clearNotice h kind) := by
  rintro _ _ ⟨⟩; exact ⟨rfl, rfl⟩
theorem setNoticeEnables (h : Header) (mask : BitVec 16) : Statement (.setNoticeEnables h mask) := by
  rintro _ _ ⟨⟩; exact ⟨rfl, rfl⟩
theorem storeRead (h : Header) (sheet start count : Nat) :
    Statement (.storeRead h sheet start count) := by
  rintro _ _ ⟨⟩; exact ⟨rfl, rfl⟩
theorem storeWrite (h : Header) (sheet start : Nat) (values : List Word32) :
    Statement (.storeWrite h sheet start values) := by
  rintro _ _ ⟨⟩; exact ⟨rfl, rfl⟩
theorem releaseDamaged (h : Header) (slot : Nat) : Statement (.releaseDamaged h slot) := by
  rintro _ _ ⟨⟩; exact ⟨rfl, rfl⟩
theorem writeCycleEnd : Statement .writeCycleEnd := nofun
theorem waitingReadProceeds (work : WaitingWork) : Statement (.waitingReadProceeds work) := nofun
theorem secondEvent : Statement .secondEvent := nofun
theorem draftTimeout : Statement .draftTimeout := nofun
theorem minuteEvent : Statement .minuteEvent := nofun
theorem linePeriodEnd : Statement .linePeriodEnd := nofun
theorem switchTimerExpiry : Statement .switchTimerExpiry := nofun
theorem firstLineTimeout : Statement .firstLineTimeout := nofun
theorem imageDelivery (unit line : Nat) (pixels : List Pixel) : Statement (.imageDelivery unit line pixels) :=
  nofun
theorem lampSupplyLow : Statement .lampSupplyLow := nofun
theorem lampSupplyRecovery : Statement .lampSupplyRecovery := nofun
theorem lampTimerExpiry : Statement .lampTimerExpiry := nofun
theorem magazineInserted (magazine : Magazine) (widthCode surfaceCode : Nat) (paperEnd : Bool) : Statement (.magazineInserted magazine widthCode surfaceCode paperEnd) :=
  nofun
theorem magazineRemoved (magazine : Magazine) : Statement (.magazineRemoved magazine) := nofun
theorem paperEnd (magazine : Magazine) : Statement (.paperEnd magazine) := nofun
theorem paperEndClear (magazine : Magazine) : Statement (.paperEndClear magazine) := nofun
theorem encoderEvent : Statement .encoderEvent := nofun
theorem windowExpiry : Statement .windowExpiry := nofun
theorem markEvent : Statement .markEvent := nofun
theorem conversionEnd (value : Nat) : Statement (.conversionEnd value) := nofun
theorem binDoorOpen (bin : Nat) : Statement (.binDoorOpen bin) := nofun
theorem binDoorClose (bin : Nat) : Statement (.binDoorClose bin) := nofun
theorem markerReceivedInHunt : Statement .markerReceivedInHunt := nofun
theorem powerLoss : Statement .powerLoss := nofun

end Sys2Proof.Laws.Catalogue
end

