-- ==== Sys2Proof/Laws/Replies.lean ====
section
/-! SUPPORT. What the owning blocks' decisions keep, one lemma a request (`Keeps`, carried on from an earlier
state `r`). The decisions that change the clock, the link or the store have their laws in
Laws/Services.lean. -/

namespace Sys2Proof.Machine

section
variable {r s : State}

/-! ### Orders -/

theorem Leaves.after_lookUp {n : Nat} {touch : Bool} (h : Leaves r s) :
    Leaves r (lookUp n touch s).2 := by
  unfold lookUp
  split
  · exact h
  · dsimp only
    split
    · exact h.after_readSlot
    · split
      · exact h.after_readSlot
      · split
        · exact h.after_readSlot.after_setOrder
        · exact h.after_readSlot

theorem Leaves.after_takeFreeSlot {is : List Nat} : ∀ {s : State}, Leaves r s →
    Leaves r (takeFreeSlot is s).2 := by
  induction is with
  | nil => exact fun h => h
  | cons i rest ih =>
    intro s h
    unfold takeFreeSlot
    split
    · exact ih h
    · dsimp only
      split
      · exact ih h.after_readFreeSlot
      · exact h.after_readFreeSlot

/-- Only the next number of the Order Table is changed. -/
theorem Leaves.after_nextNumber {n : Nat} (h : Leaves r s) :
    Leaves r { s with orders := { s.orders with nextNumber := n } } :=
  h.of_quiet rfl rfl rfl rfl rfl rfl rfl rfl rfl rfl

theorem Leaves.after_decideOpenOrder {source cls : Nat} {p : Option Nat} {t : Option (List Byte)}
    (h : Leaves r s) : Leaves r (decideOpenOrder source cls p t s).2 := by
  unfold decideOpenOrder
  split
  · exact h
  · split
    · exact h
    · have h1 := h.after_takeFreeSlot (is := slotIndexes)
      split <;> rename_i heq <;> rw [heq] at h1
      · exact h1
      · exact h1.after_freeSlot.after_setOrder.after_nextNumber

theorem Leaves.after_decideAddLine {b : Bool} {n : Nat} {l : LineItem} (h : Leaves r s) :
    Leaves r (decideAddLine b n l s).2 := by
  have h1 := h.after_lookUp (n := n) (touch := !b)
  unfold decideAddLine
  generalize lookUp n (!b) s = found at h1 ⊢
  dsimp only
  split
  · exact h1
  · split
    · exact h1
    · exact h1
    · split
      · exact h1
      · split
        · exact h1
        · split
          · exact h1
          · split
            · exact h1
            · exact h1.after_setOrder

theorem Leaves.after_decideChangeLine {b : Bool} {n p : Nat} {l : LineItem} (h : Leaves r s) :
    Leaves r (decideChangeLine b n p l s).2 := by
  have h1 := h.after_lookUp (n := n) (touch := !b)
  unfold decideChangeLine
  generalize lookUp n (!b) s = found at h1 ⊢
  dsimp only
  split
  · exact h1
  · split
    · exact h1
    · exact h1
    · split
      · exact h1
      · split
        · exact h1
        · split
          · exact h1
          · split
            · exact h1
            · split
              · exact h1
              · exact h1.after_setOrder

theorem Leaves.after_decideDropLine {n p : Nat} (h : Leaves r s) :
    Leaves r (decideDropLine n p s).2 := by
  have h1 := h.after_lookUp (n := n) (touch := true)
  unfold decideDropLine
  generalize lookUp n true s = found at h1 ⊢
  dsimp only
  split
  · exact h1
  · exact h1
  · split
    · exact h1
    · split
      · exact h1
      · exact h1.after_setOrder

theorem Leaves.after_joinHeld {i : Nat} {o : Order} (h : Leaves r s) : Leaves r (joinHeld i o s) :=
  h.after_setOrder.after_heldList

theorem Leaves.after_decideSubmit {b : Bool} {n : Nat} (h : Leaves r s) :
    Leaves r (decideSubmit b n s).2 := by
  have h1 := h.after_lookUp (n := n) (touch := !b)
  unfold decideSubmit
  generalize lookUp n (!b) s = found at h1 ⊢
  dsimp only
  split
  · exact h1
  · split
    · exact h1
    · exact h1
    · split
      · exact h1
      · split
        · exact h1
        · split
          · exact h1
          · split
            · exact h1.after_admit
            · exact h1.after_joinHeld

theorem Leaves.after_decideWithdraw {n : Nat} (h : Leaves r s) : Leaves r (decideWithdraw n s).2 := by
  have h1 := h.after_lookUp (n := n) (touch := true)
  unfold decideWithdraw
  generalize lookUp n true s = found at h1 ⊢
  dsimp only
  split
  · exact h1
  · exact h1
  · split
    · exact h1.after_leaveHeldList.after_setOrder
    · exact h1

theorem Leaves.after_markVoid {ids : List Nat} (h : Leaves r s) : Leaves r (markVoid ids s) :=
  Leaves.foldl _ (fun _ _ h => h.after_modifyUnit) ids s h

theorem Leaves.after_giveBackBin {o : Order} (h : Leaves r s) : Leaves r (giveBackBin o s) := by
  unfold giveBackBin
  split
  · exact h.after_handBack
  · exact h

theorem Leaves.after_cancelUnits {i : Nat} {o : Order} (h : Leaves r s) :
    Leaves r (cancelUnits i o s).2 := by
  unfold cancelUnits
  dsimp only
  split
  · exact h.after_removeQueued.after_markVoid.after_giveBackBin.after_freeSlot
  · exact h.after_removeQueued.after_markVoid.after_giveBackBin.after_setOrder

theorem Leaves.after_decideCancel {n : Nat} (h : Leaves r s) : Leaves r (decideCancel n s).2 := by
  have h1 := h.after_lookUp (n := n) (touch := true)
  unfold decideCancel
  generalize lookUp n true s = found at h1 ⊢
  dsimp only
  split
  · exact h1
  · exact h1
  · split
    · exact h1.after_freeSlot
    · exact h1.after_leaveHeldList.after_freeSlot
    · exact h1.after_cancelUnits
    · exact h1.after_cancelUnits
    · exact h1.after_cancelUnits
    · exact h1.after_giveBackBin.after_freeSlot
    · split
      · exact h1
      · exact h1.after_giveBackBin.after_freeSlot
    · exact h1
    · exact h1

theorem Leaves.after_decideReadOrder {n : Nat} (h : Leaves r s) :
    Leaves r (decideReadOrder n s).2 := by
  have h1 := h.after_lookUp (n := n) (touch := true)
  unfold decideReadOrder
  generalize lookUp n true s = found at h1 ⊢
  dsimp only
  split <;> exact h1

theorem Leaves.after_decideFindOrders {source start : Nat} {sel : Selector} (h : Leaves r s) :
    Leaves r (decideFindOrders source sel start s).2 := by
  have h1 := h.after_readSlots (is := slotIndexes)
  unfold decideFindOrders
  generalize readSlots slotIndexes s = s1 at h1 ⊢
  split
  · exact h
  · exact h1

theorem Leaves.after_lateSlot {i : Nat} (h : Leaves r s) : Leaves r (lateSlot i s) := by
  unfold lateSlot
  dsimp only
  split
  · split
    · split
      · exact h.after_readSlot.after_setOrder.after_raise.after_promoteUnits
      · exact h.after_readSlot.after_setOrder.after_raise
    · exact h.after_readSlot
  · exact h.after_readSlot

theorem Leaves.after_lateSlots {is : List Nat} (h : Leaves r s) :
    Leaves r (is.foldl (fun s i => lateSlot i s) s) :=
  Leaves.foldl _ (fun _ _ h => h.after_lateSlot) is s h

theorem Leaves.after_lateCheck (h : Leaves r s) : Leaves r (lateCheck s) := by
  unfold lateCheck
  split
  · exact h.after_lateSlots
  · exact h

theorem Leaves.after_idleSlot {i : Nat} (h : Leaves r s) : Leaves r (idleSlot i s) := by
  unfold idleSlot
  split
  · split
    · exact h.after_readSlot.after_modifyOrder
    · exact h
  · exact h

theorem Leaves.after_idleSeconds (h : Leaves r s) : Leaves r (idleSeconds s) :=
  Leaves.after_owed (t := (slotIndexes.foldl (fun s i => idleSlot i s) s).orders.trialDue) (d := true)
    (Leaves.foldl _ (fun _ _ h => h.after_idleSlot) slotIndexes s h)

theorem Leaves.after_timeoutSlot {i : Nat} (h : Leaves r s) : Leaves r (timeoutSlot i s) := by
  unfold timeoutSlot
  split
  · dsimp only
    split
    · exact (h.after_readSlot.after_freeSlot (i := i)).of_quiet rfl rfl rfl rfl rfl rfl rfl rfl rfl rfl
    · exact h.after_readSlot
  · exact h

theorem Leaves.after_draftTimeouts (h : Leaves r s) : Leaves r (draftTimeouts s) := by
  unfold draftTimeouts
  split
  · exact Leaves.after_owed (t := (slotIndexes.foldl (fun s i => timeoutSlot i s) s).orders.trialDue)
      (d := false) (Leaves.foldl _ (fun _ _ h => h.after_timeoutSlot) slotIndexes s h)
  · exact h

theorem Leaves.after_decideRetryFault {n : Nat} (h : Leaves r s) :
    Leaves r (decideRetryFault n s).2 := by
  have h1 := h.after_lookUp (n := n) (touch := true)
  unfold decideRetryFault
  generalize lookUp n true s = found at h1 ⊢
  dsimp only
  split
  · exact h1
  · exact h1
  · split
    · exact h1
    · split
      · exact h1.after_makeUnits.after_joinHead.after_setFigures.after_setOrder
      · exact h1

theorem Leaves.after_decidePromote {n : Nat} (h : Leaves r s) : Leaves r (decidePromote n s).2 := by
  have h1 := h.after_lookUp (n := n) (touch := false)
  unfold decidePromote
  generalize lookUp n false s = found at h1 ⊢
  dsimp only
  split
  · exact h1
  · exact h1
  · split
    · split
      · exact h1
      · exact h1.after_setOrder.after_promoteUnits
    · exact h1

theorem Leaves.after_readHeldHead {held : List Nat} : ∀ {s : State}, Leaves r s → Leaves r (readHeldHead held s) := by
  induction held with
  | nil => exact fun h => h
  | cons i rest ih =>
    intro s h
    unfold readHeldHead
    dsimp only
    split
    · exact h.after_readSlot
    · exact ih h.after_readSlot

theorem Leaves.after_answerQueue {start : Nat} {order : Option (Nat × Nat)} (h : Leaves r s) :
    Leaves r (answerQueue start order s).2 := h.after_readHeldHead

theorem Leaves.after_decideReadQueue {start : Nat} {n : Option Nat} (h : Leaves r s) :
    Leaves r (decideReadQueue start n s).2 := by
  unfold decideReadQueue
  split
  · exact h
  · split
    · split
      · exact h
      · exact h.after_answerQueue
    · rename_i n
      have h1 := h.after_lookUp (n := n) (touch := false)
      generalize lookUp n false s = found at h1 ⊢
      dsimp only
      split
      · exact h1
      · exact h1
      · split
        · exact h1
        · exact h1.after_answerQueue

/-! ### The print path -/

theorem Keeps.after_decideHalt (h : Keeps r s) : Keeps r (decideHalt s).2 := h.after_addHold (by simp)

theorem Keeps.after_decideResume (h : Keeps r s) : Keeps r (decideResume s).2 :=
  h.after_removeHold (by simp)

theorem Keeps.after_decideClearFault {b : Option Bool} (h : Keeps r s) :
    Keeps r (decideClearFault b s).2 := by
  unfold decideClearFault
  exact Keeps.after_removeHold (h.after_mapTransit rfl) (by simp)

theorem Keeps.after_decideSelectMagazine (h : Keeps r s) : Keeps r (decideSelectMagazine s).2 := by
  unfold decideSelectMagazine
  split
  · exact h
  · exact (h.after_mapEngine rfl rfl rfl).on (Leaves.refl _).after_signal

theorem Keeps.after_decideLoadMagazine {m metres : Nat} (h : Keeps r s) :
    Keeps r (decideLoadMagazine m metres s).2 := by
  unfold decideLoadMagazine
  split
  · exact h
  · split
    · exact h
    · split
      · exact h
      · exact h.after_setMag

theorem Keeps.after_decideLutWrite {bank channel start : Nat} {levels : List Nat} (h : Keeps r s) :
    Keeps r (decideLutWrite bank channel start levels s).2 := by
  unfold decideLutWrite
  split
  · exact h
  · split
    · exact h
    · dsimp only [okay]
      refine Keeps.after_mapEngine h ?_ ?_ ?_ <;> split <;> rfl

theorem Keeps.after_decideLutSwitch (h : Keeps r s) : Keeps r (decideLutSwitch s).2 := by
  dsimp only [decideLutSwitch, okay]
  exact h.after_mapEngine rfl rfl rfl

theorem Leaves.after_decideReadEngine (h : Leaves r s) : Leaves r (decideReadEngine s).2 := by
  unfold decideReadEngine okay
  dsimp only
  split
  · exact h.after_drawn
  · exact h

theorem Leaves.after_decideReadTrain {place : Nat} (h : Leaves r s) :
    Leaves r (decideReadTrain place s).2 := by
  unfold decideReadTrain
  split
  · exact h
  · split <;> exact h

/-! ### The counter -/

theorem Leaves.after_releaseBin {n : Nat} (h : Leaves r s) : Leaves r (releaseBin n s) := by
  unfold releaseBin
  split
  · exact h.after_handBack
  · exact h.after_freeBin

theorem Leaves.after_decideCollect {n : Nat} (h : Leaves r s) : Leaves r (decideCollect n s).2 := by
  have h1 := h.after_lookUp (n := n) (touch := false)
  unfold decideCollect
  generalize lookUp n false s = found at h1 ⊢
  dsimp only
  split
  · exact h1
  · exact h1
  · split
    · apply Leaves.after_settleKeys
      split
      · exact h1.after_releaseBin
      · exact h1
    · exact h1

theorem Leaves.after_decideEmptyTrays {sel : Nat} (h : Leaves r s) :
    Leaves r (decideEmptyTrays sel s).2 := by
  unfold decideEmptyTrays
  split
  · exact h
  · dsimp only [okay]
    exact h.after_mapSorter rfl

theorem Leaves.after_decideQuote {n : Nat} (h : Leaves r s) : Leaves r (decideQuote n s).2 := by
  have h1 := h.after_lookUp (n := n) (touch := true)
  unfold decideQuote
  generalize lookUp n true s = found at h1 ⊢
  dsimp only
  split
  · exact h1
  · exact h1
  · split
    · exact h1
    · split <;> exact h1

theorem Leaves.after_takePayment {i amount : Nat} {o : Order} (h : Leaves r s) :
    Leaves r (takePayment i amount o s).2 := by
  unfold takePayment
  dsimp only
  split
  · exact h
  · exact h.after_settleKeys

theorem Leaves.after_decidePay {n amount : Nat} (h : Leaves r s) :
    Leaves r (decidePay n amount s).2 := by
  have h1 := h.after_lookUp (n := n) (touch := false)
  unfold decidePay
  generalize lookUp n false s = found at h1 ⊢
  dsimp only
  split
  · exact h1
  · exact h1
  · split
    · exact h1
    · split
      · exact h1
      · split
        · exact h1.after_takePayment
        · exact h1

/-! ### Calibration -/

theorem Leaves.after_queueStrip {u : Nat} (h : Leaves r s) : Leaves r (queueStrip u s).2 := by
  have h1 := h.after_makeUnit (u := stripUnit u s.store.general)
  unfold queueStrip
  dsimp only
  split <;> rename_i heq <;> rw [heq] at h1
  · exact h1.of_quiet rfl rfl rfl rfl rfl rfl rfl rfl rfl rfl
  · exact h1

theorem Leaves.after_decideStartCal {u : Nat} (h : Leaves r s) : Leaves r (decideStartCal u s).2 := by
  unfold decideStartCal
  split
  · exact h
  · split
    · exact h
    · split
      · exact h
      · split
        · exact h
        · split
          · exact h
          · exact h.after_queueStrip

theorem Leaves.after_decideWaiveCal {u : Nat} (h : Leaves r s) : Leaves r (decideWaiveCal u s).2 := by
  unfold decideWaiveCal
  split
  · exact h
  · dsimp only [okay]
    split
    · exact h.after_setSurface.after_signal
    · exact h.after_setSurface

theorem Leaves.after_decideReadCal {u : Nat} (h : Leaves r s) : Leaves r (decideReadCal u s).2 := by
  unfold decideReadCal
  split
  · exact h
  · split <;> exact h

/-! ### Notices and damaged slots -/

theorem Notice.cleared_wf (n : Notice) : n.cleared.Wf :=
  ⟨by simp [Notice.cleared], by simp [Notice.cleared], by simp [Notice.cleared]⟩

theorem Leaves.after_decideClearNotice {kind : Nat} (h : Leaves r s) :
    Leaves r (decideClearNotice kind s).2 := by
  unfold decideClearNotice
  split
  · split
    · exact h
    · exact h.trans ⟨rfl, rfl, rfl, rfl, rfl, rfl, rfl, by simp [State.shape, okay],
        fun w => forall_mem_modify Notice.cleared_wf _ _ w, id⟩
  · exact h

theorem Leaves.after_decideSetNoticeEnables {mask : BitVec 16} (h : Leaves r s) :
    Leaves r (decideSetNoticeEnables mask s).2 := by
  refine h.trans ⟨rfl, rfl, rfl, rfl, rfl, rfl, rfl, ?_, ?_, id⟩
  · simp [State.shape, decideSetNoticeEnables, okay, setEnables]
  · intro w n hn
    simp only [decideSetNoticeEnables, okay, setEnables, List.mem_map] at hn
    obtain ⟨⟨m, i⟩, hm, rfl⟩ := hn
    obtain ⟨a, b, c⟩ := w m (List.mem_of_getElem? (List.mem_zipIdx_iff_getElem?.mp hm))
    exact ⟨a, b, c⟩

theorem Leaves.after_handBacks {l : List Nat} (h : Leaves r s) :
    Leaves r (l.foldl (fun s n => handBack n s) s) :=
  Leaves.foldl _ (fun _ _ h => h.after_handBack) l s h

theorem Leaves.after_releaseSlot {i : Nat} {o : Order} (h : Leaves r s) :
    Leaves r (releaseSlot i o s).2 := by
  unfold releaseSlot
  exact h.after_removeQueued.after_setFigures.after_handBacks.after_freeSlot

theorem Leaves.after_decideReleaseDamaged {i : Nat} (h : Leaves r s) :
    Leaves r (decideReleaseDamaged i s).2 := by
  unfold decideReleaseDamaged
  split
  · exact h
  · dsimp only
    split
    · split
      · exact h.after_readSlot.after_releaseSlot
      · exact h.after_readSlot
    · exact h.after_readSlot

end

end Sys2Proof.Machine
end

