-- ==== Sys2Proof/Laws/Store.lean ====
section
/-! SUPPORT. What the Settings Store's operations do to a sheet: lengths, the sealed check value, and the
store's soundness after a write, a cycle's end, a cycle cut short and a start's check. -/

namespace Sys2Proof.Machine

/-! ### Entries and the check value -/

theorem sealEntries_length (l : List Word32) : (sealEntries l).length = l.length := by
  simp [sealEntries]

theorem sealEntries_getD (l : List Word32) (h : l.length = 64) :
    (sealEntries l).getD 63 0 = BitVec.ofNat 32 (checkValue l) := by
  simp [sealEntries, List.getD_eq_getElem?_getD, h]

/-- The check value does not look at entry 63. -/
theorem checkValue_set (l : List Word32) (w : Word32) : checkValue (l.set 63 w) = checkValue l := by
  simp [checkValue, List.take_set_of_le]

/-- Sealed entries agree with their check value (R182, R184). -/
theorem sealEntries_agrees (l : List Word32) (h : l.length = 64) :
    checkAgrees (sealEntries l) = true := by
  unfold checkAgrees
  rw [sealEntries_getD l h]
  unfold sealEntries
  rw [checkValue_set]
  simp

theorem placeValues_length (name : SheetName) (l : List (Nat × Word32)) :
    ∀ acc : List Word32 × Bool, (placeValues name l acc).1.length = acc.1.length := by
  induction l with
  | nil => exact fun _ => rfl
  | cons x l ih =>
    intro acc
    obtain ⟨i, w⟩ := x
    obtain ⟨entries, clamped⟩ := acc
    unfold placeValues
    simp [ih]

/-! ### Sheets of the store -/

theorem SettingsStore.sheet_setSheet (st : SettingsStore) (name other : SheetName) (x : Sheet) :
    (st.setSheet name x).sheet other = if other = name then x else st.sheet other := by
  cases name <;> cases other <;> rfl

theorem SettingsStore.cycle_setSheet (st : SettingsStore) (name : SheetName) (x : Sheet) :
    (st.setSheet name x).cycle = st.cycle := by
  cases name <;> rfl

theorem SettingsStore.sheet_withCycle (st : SettingsStore) (name : SheetName) (c : Option WriteCycle) :
    SettingsStore.sheet { st with cycle := c } name = st.sheet name := by
  cases name <;> rfl

/-- A store whose sheets have their shape and, while the part runs, agree with their check values. -/
structure SettingsStore.Sound (st : SettingsStore) : Prop where
  sheets  : ∀ name, (st.sheet name).Wf
  checked : ∀ name, st.Checked name

/-- A store write on a store with no cycle running leaves a sound store. -/
theorem storeWrite_sound {name : SheetName} {start : Nat} {values : List Word32} {s : State}
    (h : s.store.Sound) (idle : s.cycleRuns = false) :
    (storeWrite name start values s).2.store.Sound := by
  have hc : s.store.cycle = none := by simpa [State.cycleRuns] using idle
  have hw := h.sheets name
  have hlen64 := (placeValues_length name
    ((writtenEntries (firstWritable start) values.length).zip values)
    ((s.store.sheet name).entries, false)).trans hw.entries
  unfold storeWrite
  dsimp only
  refine ⟨fun n => ?_, fun n => ?_⟩
  · rw [SettingsStore.sheet_withCycle, SettingsStore.sheet_setSheet]
    split
    · exact ⟨by simp [sealEntries_length, hlen64], by simp [hw.pages], by simp; omega⟩
    · exact h.sheets n
  · refine ⟨?_, ?_⟩
    · rw [SettingsStore.sheet_withCycle, SettingsStore.sheet_setSheet]
      split
      · exact fun _ => sealEntries_agrees _ hlen64
      · rename_i hne
        rintro (good | cyc)
        · exact (h.checked n).good (Or.inl good)
        · exact absurd (by simpa using cyc.symm) hne
    · rw [SettingsStore.sheet_withCycle, SettingsStore.sheet_setSheet]
      split
      · rename_i heq; subst heq; exact fun _ _ => rfl
      · intro bad all
        have := (h.checked n).bad bad all
        rw [hc] at this; cases this

/-- The end of a write cycle leaves a sound store. -/
theorem cycleEnded_sound {st : SettingsStore} {c : WriteCycle} (h : st.Sound) (hc : st.cycle = some c) :
    ({ st.setSheet c.sheet (st.sheet c.sheet).cycleEnded with cycle := none } : SettingsStore).Sound := by
  have hw := h.sheets c.sheet
  refine ⟨fun n => ?_, fun n => ?_⟩
  · rw [SettingsStore.sheet_withCycle, SettingsStore.sheet_setSheet]
    split
    · exact ⟨hw.entries, hw.pages, hw.writes⟩
    · exact h.sheets n
  · refine ⟨?_, ?_⟩
    · rw [SettingsStore.sheet_withCycle, SettingsStore.sheet_setSheet]
      split
      · exact fun _ => (h.checked c.sheet).good (Or.inr (by rw [hc]; rfl))
      · rintro (good | cyc)
        · exact (h.checked n).good (Or.inl good)
        · cases cyc
    · rw [SettingsStore.sheet_withCycle, SettingsStore.sheet_setSheet]
      split
      · intro bad all
        have hbad : ((st.sheet c.sheet).bad && !(st.sheet c.sheet).pages.all id) = true := bad
        have hall : (st.sheet c.sheet).pages.all id = true := all
        simp [hall] at hbad
      · rename_i hne
        intro bad all
        have := (h.checked n).bad bad all
        rw [hc] at this
        exact absurd (by simpa using this.symm) hne

theorem tornEntries_length (draw page : Nat) (before after : List Word32) :
    (tornEntries draw page before after).length = 64 := by
  simp [tornEntries]

/-- A cycle cut short leaves every sheet its shape. -/
theorem cutCycle_sheets {s : State} (h : ∀ name, (s.store.sheet name).Wf) (name : SheetName) :
    ((cutCycle s).store.sheet name).Wf := by
  unfold cutCycle
  split
  · exact h name
  · rename_i c _
    dsimp only
    rw [SettingsStore.sheet_withCycle, SettingsStore.sheet_setSheet]
    split
    · have hw := h c.sheet
      exact ⟨tornEntries_length .., hw.pages, hw.writes⟩
    · exact h name

theorem cutCycle_cycle (s : State) : (cutCycle s).store.cycle = none := by
  unfold cutCycle
  split
  · assumption
  · rfl

/-- What a sheet is after its own check: agreeing and good, or BAD with no page written (R184). -/
def Sheet.Judged (sheet : Sheet) : Prop :=
  sheet.Wf ∧ (sheet.bad = false → checkAgrees sheet.entries = true) ∧
    (sheet.bad = true → sheet.pages.all id = false)

theorem checkSheet_sheet (name other : SheetName) (s : State) :
    ((checkSheet name s).store.sheet other) =
      if other = name then (checkSheet name s).store.sheet name else s.store.sheet other := by
  unfold checkSheet
  dsimp only
  split
  · simp only [SettingsStore.sheet_setSheet, if_true]
  · show (s.store.setSheet name _).sheet other = if other = name then (s.store.setSheet name _).sheet name else _
    simp only [SettingsStore.sheet_setSheet, if_true]

theorem checkSheet_judged (name : SheetName) (s : State) (h : (s.store.sheet name).Wf) :
    ((checkSheet name s).store.sheet name).Judged := by
  unfold checkSheet
  dsimp only
  split
  · rename_i agrees
    simp only [SettingsStore.sheet_setSheet, if_true]
    exact ⟨⟨h.entries, h.pages, h.writes⟩, fun _ => agrees, fun bad => (nomatch bad)⟩
  · show ((s.store.setSheet name _).sheet name).Judged
    simp only [SettingsStore.sheet_setSheet, if_true]
    exact ⟨⟨h.entries, rfl, h.writes⟩, fun good => (nomatch good), fun _ => rfl⟩

theorem checkSheet_cycle (name : SheetName) (s : State) :
    (checkSheet name s).store.cycle = s.store.cycle := by
  unfold checkSheet
  dsimp only
  split <;> exact SettingsStore.cycle_setSheet ..

/-- A start's store check judges every sheet (R184). -/
theorem storeCheck_judged (s : State) (h : ∀ name, (s.store.sheet name).Wf) (name : SheetName) :
    ((storeCheck s).store.sheet name).Judged := by
  have step (n m : SheetName) (t : State) :=
    checkSheet_sheet n m t
  unfold storeCheck
  simp only [List.foldl_cons, List.foldl_nil]
  cases name
  · rw [step, if_neg (by decide), step, if_neg (by decide), step, if_neg (by decide), step,
      if_neg (by decide)]
    exact checkSheet_judged _ _ (h _)
  · rw [step, if_neg (by decide), step, if_neg (by decide), step, if_neg (by decide)]
    exact checkSheet_judged _ _ (by rw [step, if_neg (by decide)]; exact h _)
  · rw [step, if_neg (by decide), step, if_neg (by decide)]
    exact checkSheet_judged _ _ (by
      rw [step, if_neg (by decide), step, if_neg (by decide)]; exact h _)
  · rw [step, if_neg (by decide)]
    exact checkSheet_judged _ _ (by
      rw [step, if_neg (by decide), step, if_neg (by decide), step, if_neg (by decide)]; exact h _)
  · exact checkSheet_judged _ _ (by
      rw [step, if_neg (by decide), step, if_neg (by decide), step, if_neg (by decide), step,
        if_neg (by decide)]; exact h _)

theorem storeCheck_cycle (s : State) : (storeCheck s).store.cycle = s.store.cycle := by
  unfold storeCheck
  simp only [List.foldl_cons, List.foldl_nil, checkSheet_cycle]

/-- After a start's check, with no cycle running, the store is sound. -/
theorem storeCheck_sound (s : State) (h : ∀ name, (s.store.sheet name).Wf)
    (hc : s.store.cycle = none) : (storeCheck s).store.Sound := by
  refine ⟨fun n => (storeCheck_judged s h n).1, fun n => ⟨?_, ?_⟩⟩
  · rintro (good | cyc)
    · exact (storeCheck_judged s h n).2.1 good
    · rw [storeCheck_cycle, hc] at cyc; cases cyc
  · intro bad all
    have := (storeCheck_judged s h n).2.2 bad
    rw [all] at this; cases this

end Sys2Proof.Machine
end

