-- ==== Sys2Proof/Laws/Services.lean ====
section
/-! SUPPORT. What the decisions that change the clock, the link or the store keep, and the hand-over of a
request and of its response: a sound state stays sound, the train's bound stays, and the queue of commands is
left alone. -/

namespace Sys2Proof.Machine

/-- What an operation from `r` to `s` keeps of the whole part. -/
structure Safe (r s : State) : Prop where
  sound   : Sound r → Sound s
  train   : TrainBounded r → TrainBounded s
  pending : s.pending = r.pending

theorem Safe.refl (s : State) : Safe s s := ⟨id, id, rfl⟩

theorem Safe.trans {r s t : State} (h : Safe r s) (k : Safe s t) : Safe r t :=
  ⟨fun w => k.sound (h.sound w), fun w => k.train (h.train w), k.pending.trans h.pending⟩

theorem Outer.sound {r s : State} (h : Outer r s) (w : Sound r) : Sound s :=
  ⟨h.shape.trans w.shape, by rw [h.clock]; exact w.clock, h.notices w.notices,
   by rw [h.link]; exact w.link, h.corrections w.corrections, by rw [h.store]; exact w.sheets,
   by rw [h.store, h.power]; exact w.checked⟩

theorem Keeps.safe {r s : State} (h : Keeps r s) : Safe r s :=
  ⟨h.toOuter.sound, h.train, h.pending⟩

theorem Leaves.safe {r s : State} (h : Leaves r s) : Safe r s := h.keeps.safe

/-- The store of a sound state that runs is sound. -/
theorem Sound.store {s : State} (h : Sound s) (on : s.power = .on) : s.store.Sound :=
  ⟨h.sheets, h.checked on⟩

section
variable {r s : State}

/-- A chain that `Keeps` covers follows. -/
theorem Safe.on {t : State} (h : Safe r s) (k : Keeps s t) : Safe r t := h.trans k.safe

theorem Safe.after_settle (h : Safe r s) : Safe r (settle s) := h.on (Keeps.refl _).after_settle

/-- Link fields are changed within their ranges. -/
theorem Safe.after_mapLink {f : LinkController → LinkController} (h : Safe r s)
    (hf : s.link.Wf → (f s.link).Wf) : Safe r (s.mapLink f) :=
  h.trans ⟨fun w => ⟨w.shape, w.clock, w.notices, hf w.link, w.corrections, w.sheets, w.checked⟩,
    fun w => w.of_eq rfl rfl rfl rfl, rfl⟩

/-- The link's state is changed. -/
theorem Safe.after_phase {p : LinkController → LinkPhase} (h : Safe r s) :
    Safe r (s.mapLink fun k => { k with phase := p k }) :=
  h.after_mapLink fun ⟨a, b, c, d, e, f, g⟩ => ⟨a, b, c, d, e, f, g⟩

/-! ### The clock -/

/-- The clock is set to a time within its ranges. -/
theorem Safe.after_clock {c : ShopClock} (h : Safe r s) (hc : s.clock.Wf → c.Wf) :
    Safe r { s with clock := c } :=
  h.trans ⟨fun w => ⟨w.shape, hc w.clock, w.notices, w.link, w.corrections, w.sheets, w.checked⟩,
    fun w => w.of_eq rfl rfl rfl rfl, rfl⟩

theorem ShopClock.tick_wf {c : ShopClock} (h : c.Wf) : c.tick.Wf := by
  have h1 := h.minute
  have h2 := h.second
  unfold ShopClock.tick
  split
  · refine ⟨?_, by simp⟩
    dsimp only
    split <;> omega
  · exact ⟨h1, by dsimp only; omega⟩

theorem Safe.after_decideSetClock {minute second : Nat} (h : Safe r s) :
    Safe r (decideSetClock minute second s).2 := by
  unfold decideSetClock
  split
  · exact h
  · rename_i hr
    have hm : minute ≤ 10079 ∧ second ≤ 59 := by omega
    have h1 : Safe r { s with clock := { s.clock with minute, second, isSet := true } } :=
      h.after_clock fun _ => ⟨hm.1, hm.2⟩
    dsimp only [okay]
    exact h1.on (Leaves.refl _).after_lateCheck.keeps

theorem Safe.after_takeSecond (h : Safe r s) : Safe r (takeSecond s) := by
  have h1 : Safe r { s with clock := s.clock.tick } := h.after_clock ShopClock.tick_wf
  unfold takeSecond
  exact h1.on (Leaves.refl _).after_idleSeconds.keeps

theorem Safe.after_takeMinute (h : Safe r s) : Safe r (takeMinute s) := by
  have h1 : Safe r { s with clock := { s.clock with minuteDue := false } } :=
    h.after_clock fun w => ⟨w.minute, w.second⟩
  unfold takeMinute
  split
  · exact h1.on (Leaves.refl _).after_lateCheck.keeps
  · exact h

/-! ### The link -/

theorem Safe.after_decideLinkSetup {a l : Option Nat} (h : Safe r s) :
    Safe r (decideLinkSetup a l s).2 := by
  unfold decideLinkSetup
  split
  · exact h
  · split
    · exact h
    · dsimp only [okay]
      exact h.after_mapLink fun ⟨a, _, c, d, e, f, g⟩ => ⟨a, rfl, c, d, e, f, g⟩

theorem Safe.after_decideClearViolation (h : Safe r s) : Safe r (decideClearViolation s).2 := by
  dsimp only [decideClearViolation, okay]
  exact h.after_mapLink fun ⟨a, b, _, d, e, f, g⟩ => ⟨a, b, by simp, d, e, f, g⟩

theorem satUp_le {n limit : Nat} : satUp n limit ≤ limit := by
  unfold satUp
  omega

theorem countBadForm_wf {k : LinkController} (h : k.Wf) : (countBadForm k).Wf :=
  ⟨h.queue, h.lab, h.overflow, satUp_le, h.badCheck, h.badSource, h.overrun⟩

theorem receiveFrame_wf {f : Frame} {k : LinkController} (h : k.Wf) : (receiveFrame f k).Wf := by
  unfold receiveFrame
  split
  · rename_i room
    exact ⟨by simp only [List.length_append, List.length_singleton]; omega, h.lab, h.overflow, h.badForm,
      h.badCheck, h.badSource, h.overrun⟩
  · exact ⟨h.queue, h.lab, h.overflow, h.badForm, h.badCheck, h.badSource, satUp_le⟩

theorem closeFrame_wf {line : List Byte} {k : LinkController} (h : k.Wf) : (closeFrame line k).Wf := by
  unfold closeFrame
  split
  · exact countBadForm_wf h
  · split
    · exact countBadForm_wf h
    · exact ⟨h.queue, h.lab, h.overflow, h.badForm, satUp_le, h.badSource, h.overrun⟩
    · exact h
    · exact ⟨h.queue, h.lab, h.overflow, h.badForm, h.badCheck, satUp_le, h.overrun⟩
    · exact receiveFrame_wf h

theorem takeMarker_wf {line : List Byte} {k : LinkController} (h : k.Wf) : (takeMarker line k).Wf := by
  unfold takeMarker
  split
  · split
    · exact h
    · exact closeFrame_wf h
  · exact ⟨h.queue, h.lab, h.overflow, h.badForm, h.badCheck, h.badSource, h.overrun⟩

theorem dropGathered_wf {k : LinkController} (h : k.Wf) : (dropGathered k).Wf := by
  unfold dropGathered
  split
  · exact ⟨h.queue, h.lab, h.overflow, satUp_le, h.badCheck, h.badSource, h.overrun⟩
  · exact h

/-! ### The store -/

/-- The store is replaced by one that is sound when the old one is. -/
theorem Safe.after_store {st : SettingsStore} (h : Safe r s)
    (hs : (∀ name, (s.store.sheet name).Wf) → ∀ name, (st.sheet name).Wf)
    (hc : Sound s → s.power = .on → st.Sound) : Safe r { s with store := st } :=
  h.trans ⟨fun w => ⟨w.shape, w.clock, w.notices, w.link, w.corrections, hs w.sheets,
      fun on => (hc w on).checked⟩,
    fun w => w.of_eq rfl rfl rfl rfl, rfl⟩

theorem storeWrite_eq (name : SheetName) (start : Nat) (values : List Word32) (s : State) :
    (storeWrite name start values s).2 =
      { s with store := (storeWrite name start values s).2.store } := rfl

/-- A store write keeps every sheet's shape. -/
theorem storeWrite_sheets {name : SheetName} {start : Nat} {values : List Word32} {s : State}
    (h : ∀ n, (s.store.sheet n).Wf) (n : SheetName) :
    ((storeWrite name start values s).2.store.sheet n).Wf := by
  have hw := h name
  have hlen64 := (placeValues_length name
    ((writtenEntries (firstWritable start) values.length).zip values)
    ((s.store.sheet name).entries, false)).trans hw.entries
  unfold storeWrite
  dsimp only
  rw [SettingsStore.sheet_withCycle, SettingsStore.sheet_setSheet]
  split
  · exact ⟨by simp [sealEntries_length, hlen64], by simp [hw.pages], by simp; omega⟩
  · exact h n

theorem Safe.after_storeWrite {name : SheetName} {start : Nat} {values : List Word32} (h : Safe r s)
    (idle : s.cycleRuns = false) : Safe r (storeWrite name start values s).2 := by
  rw [storeWrite_eq]
  exact h.after_store storeWrite_sheets fun w on => storeWrite_sound (w.store on) idle

theorem Safe.after_decideStoreRead {sheet start count : Nat} (h : Safe r s) :
    Safe r (decideStoreRead sheet start count s).2 := by
  unfold decideStoreRead
  split
  · exact h
  · split <;> exact h

theorem Safe.after_decideStoreWrite {sheet start : Nat} {values : List Word32} (h : Safe r s) :
    Safe r (decideStoreWrite sheet start values s).2 := by
  unfold decideStoreWrite
  split
  · exact h
  · split
    · exact h
    · rename_i idle
      exact h.after_storeWrite (by simpa using idle)

theorem Safe.after_writeBalances {u : Nat} {x y z : ChannelResult} (h : Safe r s)
    (idle : s.cycleRuns = false) : Safe r (writeBalances u x y z s) := by
  unfold writeBalances
  split
  · exact h
  · exact h.after_storeWrite idle

theorem Safe.after_takeResult {u : Nat} {values : List Nat} (h : Safe r s)
    (idle : s.cycleRuns = false) : Safe r (takeResult u values s) := by
  unfold takeResult
  dsimp only
  split
  · exact h.on (Leaves.refl _).after_setStrip.after_setSurface.after_raise.keeps
  · have h1 := (h.on (Leaves.after_setStrip (strip := .none) (Leaves.refl s)).keeps).after_writeBalances
      (u := u)
      (x := channelResult s.store.calibration u 0 values)
      (y := channelResult s.store.calibration u 1 values)
      (z := channelResult s.store.calibration u 2 values) idle
    split
    · exact h1.on (Leaves.refl _).after_setSurface.after_signal.keeps
    · exact h1.on (Leaves.refl _).after_setSurface.keeps

theorem Safe.after_takeConversion {value : Nat} (h : Safe r s) : Safe r (takeConversion value s) := by
  unfold takeConversion
  split
  · dsimp only
    split
    · exact h.on (Leaves.refl _).after_stripFilter.keeps
    · have h1 := fun u all id => h.on
        (Leaves.after_stripFilter (strip := .settling u all) (filter := .noReading)
          (Leaves.after_releaseUnit (id := id) (Leaves.refl s))).keeps
      split
      · exact h1 _ _ _
      · rename_i idle
        exact (h1 _ _ _).after_takeResult (by simpa using idle)
  · exact h

/-- The copies of the GENERAL sheet's figures are read. -/
theorem Leaves.after_readCopies (h : Leaves r s) : Leaves r (readCopies s) :=
  h.of_quiet rfl rfl rfl rfl rfl rfl rfl rfl rfl rfl

theorem Keeps.after_sheetFollowUps {name : SheetName} (h : Keeps r s) :
    Keeps r (sheetFollowUps name s) := by
  unfold sheetFollowUps
  dsimp only
  split
  · split
    · exact (h.after_removeHold (by simp)).on (Leaves.refl _).after_signal
    · exact h.on (Leaves.refl _).after_signal
  · split
    · exact h.after_removeHold (by simp)
    · exact h

theorem Safe.after_endCycle (h : Safe r s) : Safe r (endCycle s) := by
  unfold endCycle
  split
  · exact h
  · rename_i c hc
    have h1 : Safe r { s with store :=
        { s.store.setSheet c.sheet (s.store.sheet c.sheet).cycleEnded with cycle := none } } := by
      refine h.after_store (fun w n => ?_) (fun w on => cycleEnded_sound (w.store on) hc)
      rw [SettingsStore.sheet_withCycle, SettingsStore.sheet_setSheet]
      split
      · have hw := w c.sheet
        exact ⟨hw.entries, hw.pages, hw.writes⟩
      · exact w n
    dsimp only
    apply Safe.on h1
    apply Keeps.after_sheetFollowUps
    have k (t : State) : Keeps t (pricingPass (draftTimeouts (setPendingFigures t))) :=
      (Keeps.refl t).after_setPendingFigures.on
        (Leaves.refl _).after_draftTimeouts.after_pricingPass
    have k2 (t : State) : Keeps t (runTrials (if c.sheet = .size then t.oweTrial else t)) := by
      split
      · exact (Leaves.refl _).after_oweTrial.after_runTrials.keeps
      · exact (Leaves.refl _).after_runTrials.keeps
    refine Keeps.on ?_ (Leaves.refl _).after_dueComparisons
    refine Keeps.trans ?_ (k2 _)
    refine Keeps.trans ?_ (k _)
    split
    · exact (Leaves.refl _).after_readCopies.keeps
    · exact Keeps.refl _

/-! ### The decisions of a request and its conclusion -/

theorem Safe.after_decideRequest {source queued : Nat} {b : Bool} {q : Request} (h : Safe r s) :
    Safe r (decideRequest source queued b q s).2 := by
  have l := Leaves.refl s
  have k := Keeps.refl s
  cases q with
  | openOrder => exact h.on l.after_decideOpenOrder.keeps
  | addLine => exact h.on l.after_decideAddLine.keeps
  | changeLine => exact h.on l.after_decideChangeLine.keeps
  | dropLine => exact h.on l.after_decideDropLine.keeps
  | submit => exact h.on l.after_decideSubmit.keeps
  | withdraw => exact h.on l.after_decideWithdraw.keeps
  | cancel => exact h.on l.after_decideCancel.keeps
  | readOrder => exact h.on l.after_decideReadOrder.keeps
  | findOrders => exact h.on l.after_decideFindOrders.keeps
  | setClock => exact h.after_decideSetClock
  | readClock => exact h
  | retryFault => exact h.on l.after_decideRetryFault.keeps
  | promote => exact h.on l.after_decidePromote.keeps
  | readQueue => exact h.on l.after_decideReadQueue.keeps
  | halt => exact h.on k.after_decideHalt
  | resume => exact h.on k.after_decideResume
  | selectMagazine => exact h.on k.after_decideSelectMagazine
  | loadMagazine => exact h.on k.after_decideLoadMagazine
  | lutWrite => exact h.on k.after_decideLutWrite
  | lutSwitch => exact h.on k.after_decideLutSwitch
  | readEngine => exact h.on l.after_decideReadEngine.keeps
  | clearFault => exact h.on k.after_decideClearFault
  | readTrain => exact h.on l.after_decideReadTrain.keeps
  | collect => exact h.on l.after_decideCollect.keeps
  | readBins => exact h
  | emptyTrays => exact h.on l.after_decideEmptyTrays.keeps
  | quote => exact h.on l.after_decideQuote.keeps
  | pay => exact h.on l.after_decidePay.keeps
  | startCal => exact h.on l.after_decideStartCal.keeps
  | waiveCal => exact h.on l.after_decideWaiveCal.keeps
  | readCal => exact h.on l.after_decideReadCal.keeps
  | linkSetup => exact h.after_decideLinkSetup
  | reset => exact h
  | readLink =>
    show Safe r (decideReadLink queued s).2
    unfold decideReadLink
    split <;> exact h
  | readViolation => exact h
  | clearViolation => exact h.after_decideClearViolation
  | readNotices => exact h
  | clearNotice => exact h.on l.after_decideClearNotice.keeps
  | setNoticeEnables => exact h.on l.after_decideSetNoticeEnables.keeps
  | storeRead => exact h.after_decideStoreRead
  | storeWrite => exact h.after_decideStoreWrite
  | releaseDamaged => exact h.on l.after_decideReleaseDamaged.keeps
  | unspelled => exact h

theorem Safe.after_respond {x : Header} {code : Nat} {status : Status} {body : List Byte} {b : Bool}
    (h : Safe r s) : Safe r (respond x code status body b s) := by
  unfold respond
  exact h.after_phase

theorem Safe.after_conclude {x : Header} {b : Bool} {q : Request} {queued : Nat}
    {reply : Reply × State} (h : Safe r reply.2) : Safe r (conclude x b q queued reply) := by
  unfold conclude
  split
  · split
    · exact h.after_phase
    · exact h.after_respond
  · exact h.after_phase

theorem Safe.after_violate {source : Nat} {q : Request} {cause : DenyCause} {b : Bool} (h : Safe r s) :
    Safe r (violate source q cause b s) := by
  unfold violate
  refine Safe.on ?_ (Leaves.refl _).after_raise.keeps
  refine h.after_mapLink fun w => ?_
  split
  · exact ⟨w.queue, w.lab, w.overflow, w.badForm, w.badCheck, w.badSource, w.overrun⟩
  · exact ⟨w.queue, w.lab, satUp_le, w.badForm, w.badCheck, w.badSource, w.overrun⟩

theorem Safe.after_denied {x : Header} {b : Bool} {q : Request} {cause : DenyCause} (h : Safe r s) :
    Safe r (denied x b q cause s) := by
  unfold denied
  dsimp only
  split
  · exact h.after_violate.after_phase
  · exact h.after_violate.after_respond

theorem Leaves.after_ownerTest {source n : Nat} (h : Leaves r s) :
    Leaves r (ownerTest source n s).2 := by
  unfold ownerTest
  split
  · exact h
  · dsimp only
    split
    · exact h.after_readSlot
    · split
      · exact h.after_readSlot
      · split <;> exact h.after_readSlot

theorem Leaves.after_entryTest {source : Nat} {q : Request} (h : Leaves r s) :
    Leaves r (entryTest source q s).2 := by
  unfold entryTest
  dsimp only
  split
  · exact h
  · split
    · exact h
    · split
      · exact h
      · split
        · exact h
        · split
          · split
            · exact h.after_ownerTest
            · exact h
          · exact h

theorem Leaves.after_rightsTest {source : Nat} {q : Request} (h : Leaves r s) :
    Leaves r (rightsTest source q s).2 := by
  unfold rightsTest
  split
  · exact h
  · split
    · split <;> exact h
    · exact h.after_entryTest

theorem damagedReply_state (q : Request) (i : Nat) (s : State) : (damagedReply q i s).2 = s := by
  unfold damagedReply
  split
  · rfl
  · split <;> rfl
  · rfl

theorem Safe.after_passRights {x : Header} {b : Bool} {q : Request} {queued : Nat} (h : Safe r s) :
    Safe r (passRights x b q queued s) := by
  have h1 := h.on (Leaves.after_rightsTest (source := x.source) (q := q) (Leaves.refl s)).keeps
  unfold passRights
  split <;> rename_i heq <;> rw [heq] at h1
  · exact h1.after_phase
  · exact h1.after_denied
  · exact Safe.after_conclude (by rw [damagedReply_state]; exact h1)
  · exact Safe.after_conclude h1.after_decideRequest

theorem Safe.after_takeRequest (h : Safe r s) : Safe r (takeRequest s) := by
  unfold takeRequest
  split
  · rename_i f rest _ hq
    have h1 : Safe r (s.mapLink fun k => { k with queue := rest }) := by
      refine h.after_mapLink fun w => ⟨?_, w.lab, w.overflow, w.badForm, w.badCheck, w.badSource,
        w.overrun⟩
      have := w.queue
      rw [hq] at this
      simp only [List.length_cons] at this
      dsimp only
      omega
    dsimp only
    split
    · unfold takeBroadcast
      split
      · split
        · exact h1
        · exact h1.after_passRights
      · exact h1
    · unfold takeAddressed
      dsimp only
      split
      · exact h1.after_respond
      · split
        · exact h1.after_respond
        · split
          · exact h1.after_respond
          · exact h1.after_passRights
  · exact h

theorem Safe.after_resumeRequest (h : Safe r s) : Safe r (resumeRequest s) := by
  unfold resumeRequest
  split
  · split
    · exact h.after_passRights
    · exact Safe.after_conclude h
    · exact Safe.after_conclude h.after_decideRequest
  · exact h

theorem Safe.after_responseSent (h : Safe r s) : Safe r (responseSent s) := by
  unfold responseSent
  split
  · exact h.after_phase
  · exact h

theorem Safe.after_serve {x : Header} {q : Request} {decision : State → Reply × State}
    (h : Safe r s) (hd : Safe s (decision s).2) : Safe r (serve x q decision s) := by
  unfold serve
  split
  · exact h.trans (Safe.after_conclude hd)
  · exact h

theorem Safe.after_serveActing {x : Header} {q : Request} {decision : State → Reply × State}
    (h : Safe r s) (hd : Safe s (decision s).2) : Safe r (serveActing x q decision s) := by
  unfold serveActing
  split
  · exact h.trans (Safe.after_conclude hd).after_settle
  · exact h

theorem Safe.after_whileOn {event : State → State} (h : Safe r s) (he : Safe s (event s)) :
    Safe r (whileOn event s) := by
  unfold whileOn
  split
  · exact h.trans he
  · exact h

theorem Safe.after_whileOnActing {event : State → State} (h : Safe r s) (he : Safe s (event s)) :
    Safe r (whileOnActing event s) := by
  unfold whileOnActing
  split
  · exact h.trans he.after_settle
  · exact h

/-! ### Waiting work, magazines -/

theorem Safe.after_proceed {work : WaitingWork} (h : Safe r s) : Safe r (proceed work s) := by
  unfold proceed
  split
  · exact h
  · rename_i idle
    split
    · exact h.after_resumeRequest
    · split
      · rename_i w
        exact h.on ((Keeps.refl _).after_makeSelection w.2.1)
      · exact h
    · split
      · exact h.on (Keeps.refl _).after_completeStart
      · exact h
    · split
      · exact h.on (Keeps.refl _).after_startSwitchTimer
      · exact h
    · split
      · exact h.after_takeResult (by simpa using idle)
      · exact h

theorem Keeps.after_switchExpired (h : Keeps r s) : Keeps r (switchExpired s) := by
  unfold switchExpired
  split
  · exact (h.after_mapEngine rfl rfl rfl).after_boundary
  · exact h

theorem lampGoesLow_same (e : Engine) :
    (lampGoesLow e).holds = e.holds ∧ (lampGoesLow e).current = e.current ∧
      (lampGoesLow e).state = e.state := by
  unfold lampGoesLow
  split <;> exact ⟨rfl, rfl, rfl⟩

theorem Keeps.after_lampRecovers (h : Keeps r s) : Keeps r (lampRecovers s) := by
  unfold lampRecovers
  split
  · exact Keeps.after_removeHold (h.after_mapEngine rfl rfl rfl) (by simp)
  · exact h

theorem Keeps.after_insertMagazine {m : Magazine} {w u : Nat} {b : Bool} (h : Keeps r s) :
    Keeps r (insertMagazine m w u b s) := by
  unfold insertMagazine
  dsimp only
  split
  · exact h
  · exact h.after_setMag

theorem Keeps.after_removeMagazine {m : Magazine} (h : Keeps r s) : Keeps r (removeMagazine m s) := by
  unfold removeMagazine
  split
  · exact h.after_paperOut
  · exact h

theorem Keeps.after_takePaperEnd {m : Magazine} (h : Keeps r s) : Keeps r (takePaperEnd m s) := by
  unfold takePaperEnd
  dsimp only
  split
  · exact h
  · exact h.after_paperOut

theorem Keeps.after_clearPaperEnd {m : Magazine} (h : Keeps r s) : Keeps r (clearPaperEnd m s) := by
  unfold clearPaperEnd
  dsimp only
  split
  · exact h.after_setMag
  · exact h

end

end Sys2Proof.Machine
end

