-- ==== Sys2Proof/Laws/Starts.lean ====
section
/-! SUPPORT. What the starts, the warm reset and a stop of the part keep: a sound state stays sound, and the
train's bound holds after every start whatever the train held before. -/

namespace Sys2Proof.Machine

/-- Nothing in flight, the engine HELD, and a hold-reason set without TRAIN_FULL. -/
theorem TrainBounded.at_start {s : State} (h1 : s.transit.train = []) (h2 : s.engine.current = none)
    (h3 : s.engine.state = .held) (h4 : s.engine.holds.trainFull = false) : TrainBounded s :=
  ⟨by rw [h1]; simp, by rw [h1, h4]; rfl, by rw [h2]; simp, by rw [h3]; intro e; cases e⟩

/-- The end of a start, from a state that a start left. -/
theorem Keeps.after_endStart {r s : State} (h : Keeps r s) : Keeps r (endStart s) :=
  (h.on (Leaves.refl _).after_pricingPass.after_oweTrial).after_settle

theorem Outer.after_stopPath {r s : State} (h : Outer r s) : Outer r (stopPath s) := by
  unfold stopPath
  dsimp only
  generalize hs1 : (s.leaveQueue s.queue.strip).releaseUnits s.queue.strip = s1
  have h1 : Leaves s s1 := hs1 ▸ (Leaves.refl s).after_leaveQueue.after_releaseUnits
  have h2 := h.trans (h1.after_resetSpoilAll (ids := s1.inFlight)).outer
  generalize resetSpoilAll s1.inFlight s1 = s2 at h2 ⊢
  have h3 := (h2.of_engineTransit (e := { s2.engine with current := none })
    (t := { s2.transit with train := [], consecutiveBlind := 0, waitingMarks := [] })).trans
    (Leaves.refl _).after_resetCalibration.outer
  exact h3.trans ⟨rfl, rfl, rfl, rfl, rfl, rfl, id, id⟩

theorem stopPath_train (s : State) :
    (stopPath s).transit.train = [] ∧ (stopPath s).engine.current = none := by
  unfold stopPath
  dsimp only
  generalize (s.leaveQueue s.queue.strip).releaseUnits s.queue.strip = s1
  generalize resetSpoilAll s1.inFlight s1 = s2
  have h3 := (Leaves.refl { s2 with
    transit := { s2.transit with train := [], consecutiveBlind := 0, waitingMarks := [] }
    engine := { s2.engine with current := none } }).after_resetCalibration
  exact ⟨by rw [h3.transit], by rw [h3.engine]⟩

/-! ### Warm reset -/

theorem Safe.after_warmReset {r s : State} {a b : SensedMagazine} (h : Safe r s) :
    Safe r (warmReset a b s) := by
  refine h.trans ?_
  unfold warmReset
  generalize hs0 : ({ s with link := s.link.warm, notices := s.notices.warm } : State) = s0
  have h1 : Outer s0 (stopPath s0) := (Leaves.refl s0).outer.after_stopPath
  have ht := stopPath_train s0
  generalize stopPath s0 = s1 at h1 ht ⊢
  dsimp only
  refine Safe.trans ?_ (Keeps.refl _).after_endStart.safe
  refine Safe.trans (s := s0) ⟨fun w => ?_, fun w => ?_, by rw [← hs0]⟩
    ⟨fun w => ?_, fun _ => ?_, ?_⟩
  · rw [← hs0]
    refine ⟨?_, w.clock, ?_, ?_, w.corrections, w.sheets, w.checked⟩
    · have := w.shape
      simpa [State.shape, NoticeUnit.warm] using this
    · intro n hn
      simp only [NoticeUnit.warm, List.mem_map] at hn
      obtain ⟨m, -, rfl⟩ := hn
      exact Notice.cleared_wf m
    · have k := w.link
      exact ⟨by simp [LinkController.warm], k.lab, by simp [LinkController.warm], k.badForm, k.badCheck,
        k.badSource, k.overrun⟩
  · rw [← hs0]; exact w.of_eq rfl rfl rfl rfl
  · refine Outer.sound (h1.trans ?_) w
    exact ⟨rfl, rfl, rfl, rfl, rfl, rfl, id, id⟩
  · exact TrainBounded.at_start ht.1 rfl rfl rfl
  · exact h1.pending

/-! ### A stop of the part -/

theorem cutCycle_same (s : State) :
    (cutCycle s).power = s.power ∧ (cutCycle s).orders = s.orders ∧ (cutCycle s).clock = s.clock ∧
    (cutCycle s).memory = s.memory ∧ (cutCycle s).queue = s.queue ∧ (cutCycle s).engine = s.engine ∧
    (cutCycle s).transit = s.transit ∧ (cutCycle s).sorter = s.sorter ∧ (cutCycle s).cal = s.cal ∧
    (cutCycle s).link = s.link ∧ (cutCycle s).notices = s.notices ∧
    (cutCycle s).pending = s.pending := by
  unfold cutCycle
  split <;> exact ⟨rfl, rfl, rfl, rfl, rfl, rfl, rfl, rfl, rfl, rfl, rfl, rfl⟩

/-- A state sound but for the agreement of its sheets with their check values. -/
structure Shaped (s : State) : Prop where
  shape       : s.shape = State.partShape
  clock       : s.clock.Wf
  notices     : ∀ n ∈ s.notices.kinds, n.Wf
  link        : s.link.Wf
  corrections : s.memory.corrections ≤ 65535
  sheets      : ∀ name, (s.store.sheet name).Wf

theorem Sound.shaped {s : State} (h : Sound s) : Shaped s :=
  ⟨h.shape, h.clock, h.notices, h.link, h.corrections, h.sheets⟩

theorem Shaped.sound {s : State} (h : Shaped s) (hc : s.power = .on → s.store.Sound) : Sound s :=
  ⟨h.shape, h.clock, h.notices, h.link, h.corrections, h.sheets, fun on => (hc on).checked⟩

theorem Shaped.after_cutCycle {s : State} (h : Shaped s) : Shaped (cutCycle s) := by
  obtain ⟨-, h2, h3, h4, h5, -, -, h8, h9, h10, h11, -⟩ := cutCycle_same s
  refine ⟨?_, by rw [h3]; exact h.clock, by rw [h11]; exact h.notices, by rw [h10]; exact h.link,
    by rw [h4]; exact h.corrections, cutCycle_sheets h.sheets⟩
  have := h.shape
  simpa [State.shape, h2, h5, h8, h9, h11] using this

theorem Safe.after_stopPart {r s : State} {p : Power} (h : Safe r s) (hp : p ≠ .on) :
    Safe r (stopPart p s) := by
  refine h.trans ⟨fun w => ?_, fun w => ?_, ?_⟩
  · have k := w.shaped.after_cutCycle
    exact Shaped.sound ⟨k.shape, k.clock, k.notices, k.link, k.corrections, k.sheets⟩
      fun on => absurd on hp
  · obtain ⟨-, -, -, -, -, h6, h7, -⟩ := cutCycle_same s
    refine w.of_eq ?_ ?_ ?_ ?_
    · show (cutCycle s).transit.train.length = _; rw [h7]
    · show (cutCycle s).engine.holds = _; rw [h6]
    · show (cutCycle s).engine.current = _; rw [h6]
    · show (cutCycle s).engine.state = _; rw [h6]
  · exact (cutCycle_same s).2.2.2.2.2.2.2.2.2.2.2

/-! ### Cold and retained starts -/

theorem senseDoors_length (doors : List Bool) (bins : List Bin) :
    (senseDoors doors bins).length = bins.length := by
  simp [senseDoors]

theorem NoticeUnit.reset_wf : ∀ n ∈ NoticeUnit.reset.kinds, n.Wf := by
  intro n hn
  simp only [NoticeUnit.reset, List.mem_replicate] at hn
  obtain ⟨-, rfl⟩ := hn
  exact ⟨by simp, by simp, by simp⟩

theorem LinkController.reset_wf : LinkController.reset.Wf :=
  ⟨by simp [LinkController.reset], rfl, by simp [LinkController.reset], by simp [LinkController.reset],
   by simp [LinkController.reset], by simp [LinkController.reset], by simp [LinkController.reset]⟩

/-- One sheet's check changes the store and the notices alone. -/
theorem checkSheet_outer (name : SheetName) (s : State) :
    (checkSheet name s).power = s.power ∧ (checkSheet name s).orders = s.orders ∧
    (checkSheet name s).clock = s.clock ∧ (checkSheet name s).memory = s.memory ∧
    (checkSheet name s).queue = s.queue ∧ (checkSheet name s).engine = s.engine ∧
    (checkSheet name s).transit = s.transit ∧ (checkSheet name s).sorter = s.sorter ∧
    (checkSheet name s).cal = s.cal ∧ (checkSheet name s).link = s.link ∧
    (checkSheet name s).pending = s.pending ∧
    (checkSheet name s).notices.kinds.length = s.notices.kinds.length ∧
    ((∀ n ∈ s.notices.kinds, n.Wf) → ∀ n ∈ (checkSheet name s).notices.kinds, n.Wf) := by
  unfold checkSheet
  dsimp only
  split
  · exact ⟨rfl, rfl, rfl, rfl, rfl, rfl, rfl, rfl, rfl, rfl, rfl, rfl, id⟩
  · exact ⟨rfl, rfl, rfl, rfl, rfl, rfl, rfl, rfl, rfl, rfl, rfl, by simp [State.raise],
      fun w => forall_mem_modify (fun _ => Notice.raised_wf _) _ _ w⟩

theorem storeCheck_outer (s : State) :
    (storeCheck s).power = s.power ∧ (storeCheck s).orders = s.orders ∧
    (storeCheck s).clock = s.clock ∧ (storeCheck s).memory = s.memory ∧
    (storeCheck s).queue = s.queue ∧ (storeCheck s).engine = s.engine ∧
    (storeCheck s).transit = s.transit ∧ (storeCheck s).sorter = s.sorter ∧
    (storeCheck s).cal = s.cal ∧ (storeCheck s).link = s.link ∧
    (storeCheck s).pending = s.pending ∧
    (storeCheck s).notices.kinds.length = s.notices.kinds.length ∧
    ((∀ n ∈ s.notices.kinds, n.Wf) → ∀ n ∈ (storeCheck s).notices.kinds, n.Wf) := by
  unfold storeCheck
  generalize [SheetName.size, .price, .calibration, .stations, .general] = names
  induction names generalizing s with
  | nil => exact ⟨rfl, rfl, rfl, rfl, rfl, rfl, rfl, rfl, rfl, rfl, rfl, rfl, id⟩
  | cons n names ih =>
    obtain ⟨a1, a2, a3, a4, a5, a6, a7, a8, a9, a10, a11, a12, a13⟩ := checkSheet_outer n s
    obtain ⟨b1, b2, b3, b4, b5, b6, b7, b8, b9, b10, b11, b12, b13⟩ := ih (checkSheet n s)
    exact ⟨b1.trans a1, b2.trans a2, b3.trans a3, b4.trans a4, b5.trans a5, b6.trans a6, b7.trans a7,
      b8.trans a8, b9.trans a9, b10.trans a10, b11.trans a11, b12.trans a12, fun w => b13 (a13 w)⟩

/-- The store check makes a shaped state with no cycle running sound. -/
theorem storeCheck_makesSound {s : State} (h : Shaped s) (hc : s.store.cycle = none) :
    Sound (storeCheck s) := by
  obtain ⟨-, b2, b3, b4, b5, -, -, b8, b9, b10, -, b12, b13⟩ := storeCheck_outer s
  have k := storeCheck_sound s h.sheets hc
  refine Shaped.sound ⟨?_, by rw [b3]; exact h.clock, b13 h.notices, by rw [b10]; exact h.link,
    by rw [b4]; exact h.corrections, k.sheets⟩ fun _ => k
  have := h.shape
  simpa [State.shape, b2, b5, b8, b9, b12] using this

/-- The values after a cold start with nothing sensed are sound over any store of well-formed sheets. -/
theorem Shaped.coldBase {st : SettingsStore} {draws : Nat} {pending : List Instr} {e : Engine}
    {t : Transit} (h : ∀ name, (st.sheet name).Wf) :
    Shaped { State.reset with store := st, draws, pending, engine := e, transit := t } :=
  ⟨by simp [State.shape, State.reset, State.partShape, OrderTable.reset, ExposureQueue.reset, Sorter.reset,
      CalibrationUnit.reset, NoticeUnit.reset],
   ⟨by simp [State.reset, ShopClock.reset], by simp [State.reset, ShopClock.reset]⟩,
   NoticeUnit.reset_wf, LinkController.reset_wf, by simp [State.reset], h⟩

theorem Safe.after_coldStart {r s : State} {x : Sensed} (h : Safe r s) : Safe r (coldStart x s) := by
  refine h.trans ?_
  unfold coldStart
  have hp : (cutCycle s).pending = s.pending := (cutCycle_same s).2.2.2.2.2.2.2.2.2.2.2
  have hsheets := fun w => cutCycle_sheets (s := s) w
  have hcyc := cutCycle_cycle s
  generalize cutCycle s = s0 at hp hsheets hcyc ⊢
  dsimp only
  generalize hb : ({ State.reset with
    store := s0.store, draws := s0.draws, pending := s0.pending
    engine := { Engine.reset with advances := s0.engine.advances }
    transit := { Transit.reset with cutterCommands := s0.transit.cutterCommands } } : State) = base
  have hc : base.store.cycle = none := by rw [← hb]; exact hcyc
  have out := storeCheck_outer base
  have l := Leaves.after_readCopies (Leaves.refl (storeCheck base))
  have hsound : Shaped base → Sound (readCopies (storeCheck base)) := fun k =>
    l.outer.sound (storeCheck_makesSound k hc)
  have htrain : (readCopies (storeCheck base)).transit.train = [] := by
    rw [l.transit, out.2.2.2.2.2.2.1, ← hb]
    rfl
  have hpend : (readCopies (storeCheck base)).pending = s.pending := by
    rw [l.pending, out.2.2.2.2.2.2.2.2.2.2.1, ← hb]
    exact hp
  have hbase : (∀ name, (s.store.sheet name).Wf) → Shaped base := fun w => by
    rw [← hb]
    exact Shaped.coldBase (hsheets w)
  generalize readCopies (storeCheck base) = s1 at hsound htrain hpend ⊢
  refine ⟨fun w => ?_, fun _ => TrainBounded.at_start htrain rfl rfl rfl, hpend⟩
  have k := hsound (hbase w.sheets)
  refine ⟨?_, k.clock, k.notices, k.link, k.corrections, k.sheets, k.checked⟩
  have := k.shape
  simpa [State.shape, senseDoors_length] using this

theorem Safe.after_retainedStart {r s : State} {x : Sensed} {us : List Upset} (h : Safe r s) :
    Safe r (retainedStart x us s) := by
  refine h.trans ?_
  unfold retainedStart
  have hp : (cutCycle s).pending = s.pending := (cutCycle_same s).2.2.2.2.2.2.2.2.2.2.2
  have hshaped : Sound s → Shaped (cutCycle s) := fun w => w.shaped.after_cutCycle
  have hcyc := cutCycle_cycle s
  generalize cutCycle s = s0 at hp hshaped hcyc ⊢
  generalize hb : retainedClear us s0 = base
  have hc : base.store.cycle = none := by rw [← hb]; exact hcyc
  have hbase : Shaped s0 → Shaped base := fun k => by
    rw [← hb]
    refine ⟨?_, ⟨by simp [retainedClear, ShopClock.reset], by simp [retainedClear, ShopClock.reset]⟩,
      NoticeUnit.reset_wf, LinkController.reset_wf, k.corrections, k.sheets⟩
    have := k.shape
    simp only [State.shape, State.partShape, List.cons.injEq, and_true] at this
    obtain ⟨e1, e2, e3, e4, e5, -⟩ := this
    simp [State.shape, State.partShape, retainedClear, NoticeUnit.reset, e1, e2, e3, e4, e5]
  have hbp : base.pending = s0.pending := by rw [← hb]; rfl
  have out := storeCheck_outer base
  have l : Leaves (storeCheck base) (walkSlots (readCopies (storeCheck base))) :=
    (Leaves.after_readCopies (Leaves.refl _)).after_walkSlots
  generalize walkSlots (readCopies (storeCheck base)) = s1 at l ⊢
  dsimp only
  generalize hs2 : ({ s1 with orders := { s1.orders with
    slots := s1.orders.slots.map (Option.map zeroIdle) } } : State) = s2
  have o2 : Outer s1 s2 := by
    rw [← hs2]
    exact ⟨rfl, rfl, rfl, rfl, rfl, by simp [State.shape], id, id⟩
  have o3 : Outer (storeCheck base) (stopPath s2) := (l.outer.trans o2).after_stopPath
  have ht := stopPath_train s2
  generalize stopPath s2 = s3 at o3 ht ⊢
  refine Safe.trans ?_ (Keeps.refl _).after_endStart.safe
  refine ⟨fun w => ?_, fun _ => ?_, ?_⟩
  · have k := o3.sound (storeCheck_makesSound (hbase (hshaped w)) hc)
    refine ⟨?_, k.clock, k.notices, k.link, k.corrections, k.sheets, k.checked⟩
    have := k.shape
    simpa [State.shape, senseDoors_length] using this
  · exact TrainBounded.at_start ht.1 rfl rfl rfl
  · show s3.pending = s.pending
    rw [o3.pending, out.2.2.2.2.2.2.2.2.2.2.1, hbp, hp]

end Sys2Proof.Machine
end

