-- ==== Sys2Proof/Tests/Slice0.lean ====
section
/-! SUPPORT. Tests: ill-formed commands that the check refuses, the worked figures of the manual, and one
witness for each statement that has hypotheses, clause by clause, at concrete states. -/

namespace Sys2Proof.Machine

/-! ### Small changes of a state, for the witnesses -/

/-- No hold reason. -/
def noHold : HoldSet :=
  { labHalt := false, cutterFault := false, lampLow := false, trainFull := false, sheetBad := false }

/-- A write cycle of a sheet's first page. -/
def cycleOf (name : SheetName) : WriteCycle :=
  { sheet := name, page := 0, before := (State.reset.store.sheet name).entries }

/-- A state with unit record 0 in use. -/
def State.withUnit0 (s : State) (u : PrintUnit) : State :=
  { s with queue := { s.queue with pool := s.queue.pool.set 0 (some u) } }

/-- The engine IDLE with the magazines given. -/
def State.idleWith (s : State) (a b : MagazineRecord) : State :=
  { s with engine := { s.engine with state := .idle, holds := noHold, magA := a, magB := b } }

/-- The state with a write cycle running. -/
def State.writing (s : State) (name : SheetName) : State :=
  { s with store := { s.store with cycle := some (cycleOf name) } }

/-- The state with a bin of the sorter as given. -/
def State.withBin (s : State) (n : Nat) (b : Bin) : State :=
  { s with sorter := { s.sorter with bins := s.sorter.bins.set (n - 1) b } }

/-- The state with the wrong bits given. -/
def State.upset (s : State) (us : List Upset) : State :=
  { s with memory := { s.memory with upsets := us } }

/-- The state with a receive queue. -/
def State.received (s : State) (frames : List Frame) : State :=
  { s with link := { s.link with queue := frames } }

/-- The state whose STATIONS entry of station 3 is the word given. -/
def State.station3 (s : State) (w : Word32) : State :=
  { s with store := { s.store with stations := { s.store.stations with
      entries := sealEntries (s.store.stations.entries.set 2 w) } } }

end Sys2Proof.Machine

namespace Sys2Proof.Tests

-- One test at a time: each waits on the kernel's check of the model, and a waiting test holds a thread.
set_option Elab.async false

open Sys2Proof Sys2Proof.Machine

/-! ### Ill-formed commands -/

/-- The lab station's header. -/
def lab : Header := { source := 1, tag := 0x5A#8 }

/-- A magazine of 102 mm paper of surface 0. -/
def paper102 : SensedMagazine := { present := true, widthCode := 2, surfaceCode := 0, paperEnd := false }

/-- A line item in range: two prints of size 0 on surface 0. -/
def item1 : LineItem :=
  { size := 0, surface := 0, quantity := 2, border := 0, d := 3, c := -2, m := 1, y := -4, handle := 7 }

theorem test_source_out_of_range :
    (Instr.halt { source := 0, tag := 0 }).wf = false ∧ (Instr.halt { source := 32, tag := 0 }).wf = false
      ∧ (Instr.halt { source := 31, tag := 0 }).wf = true := by decide

theorem test_items_out_of_their_bytes :
    (Instr.addLine lab 1 { item1 with size := 256 }).wf = false
      ∧ (Instr.addLine lab 1 { item1 with d := 128 }).wf = false
      ∧ (Instr.addLine lab 1 { item1 with y := -129 }).wf = false
      ∧ (Instr.submit lab 65536).wf = false
      ∧ (Instr.pay lab 1 4294967296).wf = false
      ∧ (Instr.addLine lab 1 item1).wf = true := by decide

theorem test_body_too_long :
    (Instr.findOrders lab (.tag (List.replicate 256 0x41#8)) 0).wf = false
      ∧ (Instr.storeWrite lab 0 0 (List.replicate 60 0)).wf = false
      ∧ (Instr.storeWrite lab 0 0 (List.replicate 16 0)).wf = true := by decide +kernel

theorem test_event_operands_out_of_their_lines :
    (Instr.magazineInserted .a 8 0 false).wf = false ∧ (Instr.magazineInserted .a 0 4 false).wf = false
      ∧ (Instr.conversionEnd 1024).wf = false ∧ (Instr.conversionEnd 1023).wf = true
      ∧ (Instr.binDoorOpen 0).wf = false ∧ (Instr.binDoorClose 25).wf = false
      ∧ (Instr.frameReceived [0x01#8, 0x7E#8]).wf = false := by decide

/-- What a start senses: magazine A as given, magazine B absent, every door CLOSED. -/
def sensedA (a : SensedMagazine) : Sensed :=
  { magA := a, magB := { paper102 with present := false }, lampLow := false
    doorsOpen := List.replicate 24 false }

theorem test_sensed_levels_out_of_their_lines :
    (Instr.coldStart (sensedA paper102)).wf = true
      ∧ (Instr.coldStart { sensedA paper102 with doorsOpen := List.replicate 23 false }).wf = false
      ∧ (Instr.coldStart (sensedA { paper102 with widthCode := 8 })).wf = false
      ∧ (Instr.warmResetEffect { paper102 with surfaceCode := 4 } paper102).wf = false
      ∧ (Instr.retainedStart (sensedA paper102) [{ slot := 64, word := .number, bits := 1 }]).wf = false
      ∧ (Instr.retainedStart (sensedA paper102) [{ slot := 63, word := .state, bits := 0 }]).wf = false
      ∧ (Instr.retainedStart (sensedA paper102) [{ slot := 0, word := .other 0, bits := 40 }]).wf = false
      ∧ (Instr.retainedStart (sensedA paper102) [{ slot := 63, word := .state, bits := 39 }]).wf = true := by
  decide

/-! ### The manual's figures -/

/-- A CALIBRATION sheet with base times and balances of three surfaces' channels, lamp factor `a` (chapter 4). -/
def calSheet (surface : Nat) (bases : List Nat) (balances : List Int) (a : Nat) : Sheet :=
  let put := fun (l : List Word32) (at_ : Nat) (vs : List Word32) =>
    (vs.zipIdx at_).foldl (fun l (v, i) => l.set i v) l
  let l := put deliveredCalibration.entries (3 * surface) (bases.map (BitVec.ofNat 32))
  let l := put l (16 + 3 * surface) (balances.map (BitVec.ofInt 32))
  { deliveredCalibration with entries := sealEntries (l.set 52 (BitVec.ofNat 32 a)) }

/-- The three times and the period of a unit. -/
def figures (x : Exposure) : List Nat := [x.timeR, x.timeG, x.timeB, x.period]

/-- The worked exposures of chapter 4. -/
theorem test_exposure_examples :
    figures (dose (calSheet 0 [2400, 2200, 3000] [5, -3, 12] 1100) 0 { d := 3, c := -2, m := 1, y := -4 })
        = [3908, 2532, 6905, 13377]
      ∧ figures (dose (calSheet 2 [2400, 2400, 2400] [-3, 0, -4] 1024) 2 { d := -6, c := -8, m := -12, y := 2 })
        = [739, 689, 1378, 2838]
      ∧ figures (dose (calSheet 1 [2400, 2400, 2400] [5, 0, -3] 1100) 1 Corrections.zero)
        = [3646, 2578, 2094, 8350] := by decide +kernel

/-- The limits of the exposure time and its clamp flag (R64's table). -/
theorem test_exposure_limits :
    ([(8000, 60, 1024), (200, -60, 1024), (8000, 10, 1024), (8000, 10, 1025), (200, -23, 1024),
      (200, -24, 1024)].map fun ((base, sum, a) : Nat × Int × Nat) =>
        let second := secondTime (firstTime base sum) a
        (channelTime second, channelClamped second))
      = [(16000, true), (40, true), (16000, false), (16000, true), (41, false), (40, true)] := by
  decide +kernel

/-- The check sequence of the bytes 31 to 39 hex is 906E, sent low byte first (R159). -/
theorem test_frame_check_example :
    let bytes : List Byte := (List.range 9).map fun k => BitVec.ofNat 8 (0x31 + k)
    frameCheck bytes = 0x906E#16 ∧ checkBytes bytes = [0x6E#8, 0x90#8] := by decide +kernel

/-- A PRICE sheet with entries at the places given. -/
def priceSheet (puts : List (Nat × Word32)) : Sheet :=
  { deliveredPrice with
    entries := sealEntries (puts.foldl (fun l (i, w) => l.set i w) deliveredPrice.entries) }

/-- A line of an order. -/
def lineOf (size surface quantity : Nat) : Line :=
  { size, surface, quantity, border := .none, d := 0, c := 0, m := 0, y := 0, handle := 7, clamped := false }

/-- An order in a state, with two prints of size 0 on surface 0. -/
def order1 (state : OrderState) : Order :=
  { number := 1, owner := 1, tag := some [0x41#8], cls := .standard, queueClass := .standard
    promised := some 8700, state, lines := [lineOf 0 0 2], requested := 2, delivered := 0
    outstanding := 2, spoils := 0, trayCount := 0, bin := none, late := false, spill := false
    disturbed := false, clamped := false, price := none, paid := false, collected := false, idle := 0
    voids := none }

/-- The four figures of a price. -/
def priceFigures (p : PriceRecord) : List Nat := [p.subtotal, p.rushAdd, p.lateDiscount, p.total]

/-- The worked prices of chapter 8. -/
theorem test_price_examples :
    priceFigures (priceOf
        (priceSheet [(9, halves 29 25), (10, halves 24 100), (11, halves 19 0), (27, halves 399 0),
          (49, 2), (52, 50), (53, 20), (54, 500)])
        { order1 .complete with
          cls := .rush, late := true, lines := [lineOf 3 0 30, lineOf 3 1 12, lineOf 9 0 2] })
      = [1830, 915, 366, 2379]
    ∧ priceFigures (priceOf (priceSheet [(36, halves 30000 0), (52, 50)])
        { order1 .complete with
          cls := .rush, lines := [lineOf 12 0 99, lineOf 12 0 99, lineOf 12 0 99, lineOf 12 0 3] })
      = [9000000, 4500000, 0, 9999999] := by decide +kernel

/-- The worked calibration of chapter 9: densities 77, 69 and 61 against an aim of 70, and the balances
after. -/
theorem test_calibration_example :
    ([0, 1, 2].map fun c =>
      let x := channelResult (calSheet 0 [] [5, 0, -3] 1024) 0 c [900, 880, 860, 520, 540, 560]
      (x.density, x.steps, x.after)) = [(77, 2, 3), (69, 0, 0), (61, -3, 0)]
    ∧ (channelResult (calSheet 0 [] [5, 0, -3] 1024) 0 0 [900, 880, 860, 300, 540, 560]).error = 52 := by
  decide +kernel

/-- The late comparison at its ends: a promise at minute 8700, and one at 10070 seen at minute 5. -/
theorem test_late_examples :
    (order1 .queued).dueLate 8699 = false ∧ (order1 .queued).dueLate 8700 = true
      ∧ ({ order1 .queued with promised := some 10070 } : Order).dueLate 5 = true := by decide

/-- A window across the wrap of the path position: E = 22704, W = 40, the worked case of chapter 6. -/
theorem test_window_example :
    ({ expected := 22704, window := 40 } : CutFigures).covers 4294967290#32 = false
      ∧ ({ expected := 22704, window := 40 } : CutFigures).covers 22700#32 = true := by decide +kernel

/-! ### Small states for the witnesses -/

/-- A part whose link is set up with lab station 1, a frame being gathered, and size 0 in use. -/
def linked : State :=
  let r := State.reset
  { r with
    link := { r.link with setUp := true, address := 64, lab := some 1, inFrame := true }
    store := { r.store with size := { deliveredSize with
      entries := sealEntries (((deliveredSize.entries.set 0 3000).set 1 10).set 2 102) } } }

/-- The figures entry of an order with one line. -/
def entry1 (missing : List (Nat × Nat)) : FigureEntry :=
  { figures := [{ lead := 40, print := 3000, border := 0, mark := 8, width := 102 }], missing }

/-- The linked part with one order, in slot 0. -/
def shop (o : Order) : State :=
  { linked with
    orders := { linked.orders with slots := linked.orders.slots.set 0 (some o) }
    queue := { linked.queue with figures := linked.queue.figures.set 0 (some (entry1 [])) } }

/-- A unit of the order in slot 0. -/
def print1 : PrintUnit :=
  { kind := .print, slot := some 0, number := some 1, position := some 1, copy := some 1, lineage := 0
    surface := 0, width := some 102, lead := 40, print := 3000, border := 0, mark := 8, place := .queue
    spoiled := false, void := false, exposure := none }

/-- A strip of surface 0. -/
def strip1 : PrintUnit :=
  { print1 with kind := .strip, slot := none, number := none, position := none, copy := none
                width := none, print := 800 }

/-- The magazine of 102 mm paper of surface 0, loaded. -/
def loaded : MagazineRecord :=
  { present := true, width := some 102, surface := some 0, remaining := 2000000, paperEnd := false }

/-- One queued print, an IDLE engine and the magazines given. -/
def waitingPrint (a b : MagazineRecord) : State :=
  let s := ((shop (order1 .queued)).withUnit0 print1).idleWith a b
  { s with queue := { s.queue with standard := [0] } }

/-- An order's unit in the engine, at a line of a phase. -/
def exposing (o : Order) (u : PrintUnit) (phase : Option Phase) (line : Nat) : State :=
  let s := (shop o).withUnit0 { u with place := .engine }
  { s with engine := { s.engine with
      state := .exposing, phase, current := some 0, line, holds := noHold, magA := loaded } }

/-- A bin of the order in slot 0. -/
def bin1 (state : BinState) (isOpen opened : Bool) : Bin :=
  { state, number := some 1, slot := some 0, count := 1, isOpen, opened }

/-- A frame of a request from a station. -/
def frameOf (source code : Nat) (body : List Byte) : Frame :=
  { broadcast := false, source, code, tag := 0x5A#8, body }

theorem linked_link : linked.link.Wf :=
  ⟨by decide, by decide, by decide, by decide, by decide, by decide, by decide⟩

/-- The order in slot 0 is named by number 1. -/
theorem names_order1 (state : OrderState) (h : state ≠ .damaged) :
    Names (shop (order1 state)) 1 0 (order1 state) := by
  cases state <;> first
    | exact absurd rfl h
    | exact ⟨by decide +kernel, by decide +kernel, by decide⟩

/-! ### Witnesses: the machine -/

theorem witness_EveryCommandCompletes :
    ({ linked with power := .off } : State).power = .off ∧ (∀ x, Instr.halt lab ≠ .coldStart x)
      ∧ (∀ x u, Instr.halt lab ≠ .retainedStart x u)
      ∧ ({ linked with power := .inReset } : State).power = .inReset ∧ Instr.halt lab ≠ .powerLoss
      ∧ Instr.halt lab ≠ .resetInputAsserted ∧ (Instr.halt lab).request? = some (lab, .halt)
      ∧ ({ linked with link := { linked.link with phase := .resetting } } : State).link.phase ≠ .idle :=
  ⟨rfl, nofun, nofun, rfl, nofun, nofun, rfl, nofun⟩

theorem witness_SoundIsKept :
    let s := { linked with pending := [.encoderEvent] }
    Sound s ∧ ∃ t, step s = .next t := by
  refine ⟨⟨by decide +kernel, ⟨by decide, by decide⟩, ?_, linked_link, by decide, ?_, ?_⟩, ⟨_, rfl⟩⟩
  · intro n hn
    have h : n = { pending := false, enable := true, count := 0, detail := none } :=
      List.eq_of_mem_replicate hn
    subst h
    exact ⟨by decide, by decide, by decide⟩
  · intro name
    cases name <;> exact ⟨by decide +kernel, by decide +kernel, by decide +kernel⟩
  · intro _ name
    cases name <;> exact ⟨fun _ => by decide +kernel, fun h => by cases h⟩

theorem witness_TrainBoundIsKept :
    let s := { linked with pending := [.encoderEvent] }
    TrainBounded s ∧ ∃ t, step s = .next t :=
  ⟨⟨by decide, by decide, by decide, by decide⟩, ⟨_, rfl⟩⟩

theorem witness_SettleAnswersTheSignal :
    linked.engine.holds.isEmpty = false
      ∧ (let s := (waitingPrint loaded .absent).writing .price
        s.engine.holds.isEmpty = true ∧ s.cycleRuns = true)
      ∧ (let s := linked.idleWith .absent .absent
        s.engine.holds.isEmpty = true ∧ s.cycleRuns = false ∧ (select s).1 = .none)
      ∧ (let s := waitingPrint loaded .absent
        s.engine.holds.isEmpty = true ∧ s.cycleRuns = false ∧ (select s).1 = .grant 0)
      ∧ (let s := waitingPrint .absent loaded
        s.engine.holds.isEmpty = true ∧ s.cycleRuns = false ∧ (select s).1 = .switch)
      ∧ (linked.queue.signal = false ∧ linked.orders.trialDue = false ∧ linked.engine.state ≠ .idle)
      ∧ (let s := (linked.idleWith .absent .absent).signal
        s.orders.trialDue = false ∧ s.engine.state = .idle ∧ s.queue.signal = true
          ∧ s.engine.selectionWaiting = false ∧ (boundary s).orders.trialDue = false) := by
  decide +kernel

/-! ### Witnesses: the link -/

theorem witness_FrameCheckCatchesErrors : (0x00#8 : Byte) ≠ 0x80#8 := by decide

theorem witness_RequestBodyRoundTrip :
    (Request.storeWrite 255 255 (List.replicate 16 0xFFFFFFFF#32)).wf = true
      ∧ (Request.openOrder 255 (some 65535) (some (List.replicate 12 0x7E#8))).wf = true
      ∧ (Request.addLine 65535 { item1 with size := 255, d := -128, y := 127 }).wf = true := by
  decide +kernel

theorem witness_RequestFrameIsReceived :
    linked.power = .on ∧ linked.link.inFrame = true ∧ linked.link.address ≤ 254
      ∧ linked.link.queue.length = 0
      ∧ (linked.received (List.replicate 4 (frameOf 1 0x0B []))).link.queue.length = 4
      ∧ lab.wf = true ∧ Request.readClock.wf = true := by decide +kernel

/-- The shortest frame: a READ_CLOCK of station 1 to the address given. -/
def shortFrame (address : Nat) : List Byte := requestFrame address 1 0x5A#8 .readClock

/-- The shortest frame with a byte changed before its check is formed. -/
def changedFrame (i : Nat) (b : Byte) : List Byte :=
  let bytes := ([0x40#8, 1#8, 0x0B#8, 0x5A#8, 0#8] : List Byte).set i b
  bytes ++ checkBytes bytes

theorem witness_FrameTestsAreOrdered :
    ((shortFrame 64).take 6).length < 7 ∧ 247 < (List.replicate 248 (0#8 : Byte)).length
      ∧ (shortFrame 64).length = 7 ∧ crc (shortFrame 64) = 0xF0B8#16
      ∧ crc ((shortFrame 64).set 0 0x41#8) ≠ 0xF0B8#16
      ∧ judge 64 (shortFrame 65) = .otherAddress ∧ judge 64 (changedFrame 4 1#8) = .badForm
      ∧ judge 64 (changedFrame 1 0#8) = .badSource ∧ judge 64 (changedFrame 1 32#8) = .badSource
      ∧ judge 64 (changedFrame 2 0x80#8) = .badForm
      ∧ judge 64 ((shortFrame 64).set 0 0x41#8) = .badCheck
      ∧ judge 64 (shortFrame 255) =
          .accepted { broadcast := true, source := 1, code := 0x0B, tag := 0x5A#8, body := [] }
      ∧ (linked.power = .on ∧ linked.link.inFrame = true ∧ linked.link.address = 64)
      ∧ ({ linked.link with inFrame := false } : LinkController).inFrame = false
      ∧ unescape [1#8, 0x7D#8] = none
      ∧ (∀ bytes ∈ [(shortFrame 64).take 6, (shortFrame 64).set 0 0x41#8, shortFrame 65,
            changedFrame 1 0#8, changedFrame 2 0x80#8, shortFrame 255],
          escape bytes ≠ [] ∧ unescape (escape bytes) = some bytes)
      ∧ (linked.received (List.replicate 4 (frameOf 1 0x0B []))).link.queue.length = 4 := by
  decide +kernel

theorem witness_LinkLineEvents :
    linked.power = .on ∧ ∃ response : Response, ∀ thenReset,
      ({ linked with link := { linked.link with phase := .sending response thenReset } } :
        State).link.phase = .sending response thenReset :=
  ⟨rfl, { destination := 1, source := 64, code := 0xA1, tag := 0, status := .ok, body := [] },
    fun _ => rfl⟩

theorem witness_TakenFrameActsAsItsRow :
    let s := (shop (order1 .draft)).received [frameOf 1 5 [1#8, 0#8]]
    (Instr.submit lab 1).request? = some (lab, .submit 1) ∧ (Request.submit 1).wf = true ∧ Calm s
      ∧ s.link.setUp = true ∧ s.link.lab = some lab.source
      ∧ s.link.queue = { broadcast := false, source := lab.source, code := requestCode (.submit 1)
                         tag := lab.tag, body := requestBody (.submit 1) } :: [] := by
  refine ⟨rfl, by decide +kernel, ⟨rfl, rfl, rfl⟩, rfl, rfl, by decide +kernel⟩

/-- A broadcast SET_CLOCK to minute 8700, 5 s past. -/
def clockFrame (source : Nat) : Frame :=
  { frameOf source 0x0A [0xFC#8, 0x21#8, 5#8] with broadcast := true }

theorem witness_TakenFrameIsTested :
    (Calm (State.reset.received [frameOf 1 0x0B []]) ∧ State.reset.link.setUp = false
      ∧ (frameOf 1 0x0B []).code ≠ 0x20)
      ∧ (Calm (linked.received [frameOf 1 0x2B []]) ∧ linked.link.setUp = true
        ∧ (frameOf 1 0x00 []).code = 0 ∧ 0x2A < (frameOf 1 0x2B []).code)
      ∧ (Calm (linked.received [frameOf 1 0x01 []]) ∧ readRequest 0x01 [] = none
        ∧ readRequest 0x2A [] = none)
      ∧ (linked.link.lab = some 1
        ∧ readRequest 0x16 [1#8, 2#8] = some (.unspelled 0x16 [1#8, 2#8])
        ∧ readRequest 0x20 [2#8, 5#8, 0#8] = some (.unspelled 0x20 [2#8, 5#8, 0#8]))
      ∧ Calm (linked.received [{ frameOf 1 0x0A [] with broadcast := true }])
      ∧ readRequest 0x0A [] = none
      ∧ (∀ source ∈ [1, 3], (clockFrame source).code = 0x0A
        ∧ readRequest (clockFrame source).code (clockFrame source).body = some (.setClock 8700 5))
      ∧ readRequest 0x0A [0x60#8, 0x27#8, 60#8] = some (.setClock 10080 60)
      ∧ (let s := (linked.station3 0x21).received [clockFrame 3]
        let w := rightsOf (s.store.stations.entry (3 - 1))
        Calm s ∧ s.cycleRuns = false ∧ s.store.stations.bad = false ∧ w.enabled = true
          ∧ w.control = true) := by
  refine ⟨⟨⟨rfl, rfl, rfl⟩, by decide, by decide⟩, ⟨⟨rfl, rfl, rfl⟩, by decide, by decide, by decide⟩,
    ⟨⟨rfl, rfl, rfl⟩, by decide +kernel, by decide +kernel⟩, by decide +kernel, ⟨rfl, rfl, rfl⟩,
    by decide +kernel, by decide +kernel, by decide +kernel, ⟨rfl, rfl, rfl⟩, by decide +kernel⟩

/-- CLEAR_FAULT with items that fit test 3 and lie outside their values: the lab station is answered BAD_VALUE,
and a station without the right is DENIED, which is a violation (R163, log entry 8). -/
theorem test_unspelled_body_meets_the_rights_test :
    let answer := fun (source : Nat) =>
      match exec .requestTaken (linked.received [frameOf source 0x16 [1#8, 2#8]]) with
      | .next t => (match t.link.phase with
        | .sending r _ => some r.status
        | _ => none, t.link.violation.isSome)
      | _ => (none, false)
    answer 1 = (some .badValue, false) ∧ answer 3 = (some .denied, true) := by decide +kernel

theorem witness_StationRights :
    let s := (shop (order1 .draft)).station3 3
    CleanStorage s ∧ s.cycleRuns = false ∧ s.link.setUp = true ∧ s.link.lab ≠ some 3
      ∧ s.store.stations.bad = false ∧ namedNumber (.submit 1) = some 1
      ∧ rightClass (.submit 1) = .orderWrite
      ∧ (rightsOf (s.store.stations.entry (3 - 1))).enabled = true
      ∧ (rightsOf (s.store.stations.entry (3 - 1))).order = 1
      ∧ s.findOrder 2 = none ∧ s.findOrder 1 = some 0 ∧ s.order? 0 = some (order1 .draft) := by
  refine ⟨rfl, ?_⟩
  decide +kernel

theorem witness_DeniedRequestIsRecorded :
    (let s := fun w => (linked.station3 w).received [frameOf 3 0x0F []]
     Calm (s 0) ∧ (s 0).cycleRuns = false ∧ (s 0).link.setUp = true ∧ (s 0).link.lab ≠ some 3
        ∧ readRequest 0x0F [] = some .halt ∧ isRequestCode 0x0F = true
        ∧ (rightsOf ((s 0).store.stations.entry 2)).enabled = false
        ∧ (rightsOf ((s 1).store.stations.entry 2)).enabled = true
        ∧ (rightsOf ((s 1).store.stations.entry 2)).allows .halt = false
        ∧ (rightsOf ((s 1).store.stations.entry 2)).allows (.setClock 8700 5) = false
        ∧ (clockFrame 3).code = 0x0A ∧ rightClass (.setClock 8700 5) ≠ .labOnly
        ∧ rightClass .reset = .labOnly ∧ readRequest 0x21 [] = some .reset
        ∧ ({ (s 0).store.stations with bad := true } : Sheet).bad = true)
      ∧ (let s := ((shop (order1 .queued)).received [frameOf 3 7 [1#8, 0#8]]).station3 3
        let w := rightsOf (s.store.stations.entry (3 - 1))
        Calm s ∧ CleanStorage s ∧ Names s 1 0 (order1 .queued) ∧ (order1 .queued).owner ≠ 3
          ∧ readRequest 7 [1#8, 0#8] = some (.cancel 1) ∧ namedNumber (.cancel 1) = some 1
          ∧ rightClass (.cancel 1) = .orderWrite ∧ s.store.stations.bad = false ∧ w.enabled = true
          ∧ w.allows (.cancel 1) = true ∧ w.order = 1) := by
  refine ⟨⟨⟨rfl, rfl, rfl⟩, ?_⟩, ⟨rfl, rfl, rfl⟩, rfl,
    ⟨by decide +kernel, by decide +kernel, by decide⟩, ?_⟩ <;> decide +kernel

theorem witness_LinkRequestsAnswer :
    linked.accepts = true ∧ linked.cycleRuns = false
      ∧ (∃ a ∈ some 255, a = 0 ∨ 254 < a) ∧ (∃ l ∈ some 32, l = 0 ∨ 31 < l)
      ∧ (∀ a ∈ some 254, 1 ≤ a ∧ a ≤ 254) ∧ (∀ l ∈ some 31, 1 ≤ l ∧ l ≤ 31)
      ∧ (linked.writing .general).accepts = true ∧ (linked.writing .general).cycleRuns = true := by
  decide +kernel

theorem witness_NoticeRequestsAnswer :
    linked.accepts = true ∧ linked.notices.kinds[13 - 1]?.isSome = true
      ∧ linked.notices.kinds.length < 14 ∧ (linked.raise .calFail 3).notices.code = 10 := by
  decide +kernel

/-! ### Witnesses: the store and the record memory -/

theorem witness_StoreReadsAndRefusals :
    linked.accepts = true ∧ linked.cycleRuns = false ∧ (linked.writing .price).accepts = true
      ∧ (linked.writing .price).cycleRuns = true ∧ SheetName.general.code = 4
      ∧ (List.replicate 16 (0 : Word32)).length = 16 := by decide +kernel

theorem witness_StoreWriteStoresOnePage :
    linked.accepts = true ∧ linked.cycleRuns = false ∧ (linked.store.sheet .price).Wf
      ∧ 1 ≤ (List.replicate 16 (0 : Word32)).length ∧ (List.replicate 16 (0 : Word32)).length ≤ 16 := by
  refine ⟨by decide, by decide, ⟨by decide +kernel, by decide, by decide⟩, by decide, by decide⟩

/-- The worked write of chapter 11: CALIBRATION from entry 60, wrapping past the check value. -/
theorem test_store_write_wraps :
    let old := { deliveredCalibration with writes := 417 }
    let s := { linked with store := { linked.store with calibration := old } }
    let t := storeWrite .calibration 60 [0, 0, 0, 1, 7, 0] s
    writtenEntries 60 6 = [60, 61, 62, 48, 49, 50] ∧ t.1 = true
      ∧ t.2.store.calibration.value 49 = 1 ∧ t.2.store.calibration.writes = 418
      ∧ t.2.store.cycle.map WriteCycle.page = some 3 := by decide +kernel

theorem witness_StoredValuesLieInRange :
    generalRanges[11]? = some (1, 31) ∧ (clampEntry .general 11 32).1 = 31
      ∧ (clampEntry .calibration 16 (BitVec.ofInt 32 (-41))).1 = BitVec.ofInt 32 (-40)
      ∧ (clampEntry .price 45 (halves 7 401)).1 = halves 7 400 ∧ (clampEntry .price 47 (halves 7 1)).1 = 7
      ∧ (clampEntry .price 51 1000).1 = 999 ∧ (clampEntry .calibration 56 11).1 = 10
      ∧ (clampEntry .stations 30 0xFFFFFFFF).1 = 0x77 ∧ (clampEntry .stations 31 0xFF).1 = 0xFF
      ∧ (88 < 89 ∧ ∀ p ∈ [(89, 102), (102, 127), (127, 152), (152, 203), (203, 254), (254, 305), (305, 2 ^ 32)],
        p.1 ≤ (BitVec.ofNat 32 p.1).toNat ∧ (BitVec.ofNat 32 p.1).toNat < p.2)
      ∧ (∀ k < 3, (clampEntry .price (45 + k) (halves 7 400)).1 = if k = 2 then 7 else halves 7 400) := by
  decide +kernel

/-- The clamps that R182 names: a print length of 1..999 becomes 1000 and 0 stays, and a roll width between two
listed ones becomes the lower. -/
theorem test_size_clamps :
    [0, 1, 999, 1000, 12001].map (clampEntry .size 45)
        = [(0, false), (1000, true), (1000, true), (1000, false), (12000, true)]
      ∧ [88, 101, 102, 306].map (clampEntry .size 47)
        = [(89, true), (89, true), (102, false), (305, true)] := by decide +kernel

theorem witness_WrongBitsAreCorrectedOrDamage :
    (∀ us ∈ [[1], [2], [1, 1]].map (List.map fun bits : Nat => (⟨0, .number, bits⟩ : Upset)),
      let s := (shop (order1 .queued)).upset us
      s.order? 0 = some (order1 .queued) ∧ (order1 .queued).state ≠ .damaged
        ∧ (∀ u ∈ s.memory.upsets, u.slot = 0 ∧ u.word = .number)
        ∧ (s.memory.upsets.map Upset.bits).sum ∈ [1, 2] ∧ 0 ∉ s.orders.heldList)
      ∧ (∀ n ∈ [15, 16], n + 1 ≤ 65535) ∧ (15 + 1) % linked.memory.threshold = 0
      ∧ (∀ n ∈ [1, 2],
        let s := (shop (order1 .queued)).upset [⟨0, .other 3, 2⟩, ⟨0, .number, n⟩, ⟨0, .state, 1⟩]
        let wrong := fun (word : RecordWord) => ((s.memory.upsets.filter fun u =>
          u.slot == 0 && u.word == word).map Upset.bits).sum
        s.order? 0 = some (order1 .queued) ∧ wrong (.other 3) = 2 ∧ wrong .number = n ∧ wrong .state ≤ 1
          ∧ ((readSlot 0 s).order? 0).map Order.number = some (2 - n)) := by
  decide +kernel

/-- Two upsets of one wrong bit each in one word are an uncorrectable word (R177). -/
theorem test_two_upsets_of_one_word :
    let s := (shop (order1 .queued)).upset [⟨0, .other 3, 1⟩, ⟨0, .number, 1⟩, ⟨0, .other 3, 1⟩]
    let t := readSlot 0 s
    ((t.order? 0).map fun o => (o.state, o.number)) = some (.damaged, 1) ∧ t.memory.corrections = 1
      ∧ t.memory.upsets = [] := by decide +kernel

theorem witness_ReleaseDamagedFreesTheSlot :
    let s := shop (order1 .damaged)
    Calm s ∧ s.order? 0 = some (order1 .damaged) ∧ (order1 .damaged).state = .damaged
      ∧ s.sorter.bins.length = 24 ∧ 63 < 64 ∧ CleanStorage s
      ∧ (∀ o, (shop (order1 .held)).order? 0 = some o → o.state ≠ .damaged)
      ∧ (∀ o, s.order? 63 = some o → o.state ≠ .damaged)
      ∧ (let t := waitingPrint loaded .absent
        let t := { t with orders := { t.orders with slots := t.orders.slots.set 0 (some (order1 .damaged)) } }
        Calm t ∧ t.order? 0 = some (order1 .damaged) ∧ t.sorter.bins.length = 24
          ∧ (t.queue.ids.filter fun id => (t.unit? id).any fun u => u.slot == some 0) = [0]) := by
  refine ⟨⟨rfl, rfl, rfl⟩, by decide +kernel, by decide, by decide, by decide, rfl, ?_, ?_,
    ⟨rfl, rfl, rfl⟩, by decide +kernel⟩
  · rintro o ⟨⟩
    decide
  · rintro o ⟨⟩

/-! ### Witnesses: order records -/

theorem witness_NewNumberIsTheFirstFree :
    (9999 ≤ 9999 ∧ linked.orders.slots.length = 64)
      ∧ freeNumber (shop { order1 .draft with number := 9999 }) 64 9999 = 1
      ∧ freeNumber (shop { order1 .draft with number := 1 }) 64 9999 = 9999 := by decide +kernel

/-- A part whose slots 0 to `n - 1` hold orders. -/
def crowded (n : Nat) : State :=
  { linked with orders := { linked.orders with
      slots := List.replicate n (some (order1 .draft)) ++ List.replicate (64 - n) none } }

theorem witness_OpenOrderTakesTheLowestFreeSlot :
    Calm (crowded 63) ∧ CleanStorage (crowded 63) ∧ OrderClass.ofCode 1 = some .rush
      ∧ (∀ p ∈ some 10079, p ≤ 10079)
      ∧ (∀ t ∈ some (List.replicate 12 (0x7E#8 : Byte)),
          1 ≤ t.length ∧ t.length ≤ 12 ∧ ∀ ch ∈ t, 0x20 ≤ ch.toNat ∧ ch.toNat ≤ 0x7E)
      ∧ (crowded 63).order? 63 = none ∧ (∀ j < 63, ((crowded 63).order? j).isSome = true)
      ∧ Calm (crowded 64) ∧ CleanStorage (crowded 64) ∧ (∀ i < 64, ((crowded 64).order? i).isSome = true)
      ∧ 1 < 2 ∧ (∃ p ∈ some 10080, 10079 < p) := by
  refine ⟨⟨rfl, rfl, rfl⟩, rfl, by decide, by decide, by decide, by decide +kernel, by decide +kernel,
    ⟨rfl, rfl, rfl⟩, rfl, by decide +kernel, by decide, by decide⟩

/-- The shop with its order a DRAFT and its SIZE sheet BAD. -/
def sizeBadShop : State :=
  let s := shop (order1 .draft)
  { s with store := { s.store with size := { s.store.size with bad := true } } }

theorem witness_LineEditsKeepTheSum :
    (let s := shop (order1 .draft)
     Calm s ∧ CleanStorage s ∧ Names s 1 0 (order1 .draft)
        ∧ (order1 .draft).requested = totalQuantity (order1 .draft).lines
        ∧ s.cycleRuns = false ∧ s.store.size.bad = false ∧ s.store.size.value (3 * item1.size) ≠ 0
        ∧ Border.ofCode item1.border = some .none ∧ (order1 .draft).lines.length < 12
        ∧ totalQuantity ((order1 .draft).lines ++ [lineOf 0 0 99]) ≤ 400
        ∧ 1 ≤ (order1 .draft).lines.length ∧ (order1 .draft).lines.length < 2
        ∧ s.store.size.value (3 * 15) = 0)
      ∧ (Calm sizeBadShop ∧ CleanStorage sizeBadShop ∧ Names sizeBadShop 1 0 (order1 .draft)
        ∧ sizeBadShop.cycleRuns = false ∧ sizeBadShop.store.size.bad = true)
      ∧ (∀ state : OrderState, state ≠ .damaged → Names (shop (order1 state)) 1 0 (order1 state))
      ∧ (∀ o ∈ [{ order1 .draft with lines := List.replicate 12 (lineOf 0 0 1), requested := 12 },
          { order1 .draft with lines := List.replicate 5 (lineOf 0 0 80), requested := 400 }],
          Names (shop o) 1 0 o)
      ∧ (12 ≤ (List.replicate 12 (lineOf 0 0 1)).length ∧ 400 < 400 + item1.quantity
        ∧ 400 < totalQuantity ((List.replicate 5 (lineOf 0 0 80)).eraseIdx (5 - 1)) + 81) := by
  refine ⟨⟨⟨rfl, rfl, rfl⟩, rfl, names_order1 _ (by decide), ?_⟩,
    ⟨⟨rfl, rfl, rfl⟩, rfl, ⟨by decide +kernel, by decide +kernel, by decide⟩, rfl, rfl⟩,
    names_order1, ?_, ?_⟩
  · decide +kernel
  · intro o h
    rcases List.mem_cons.mp h with rfl | h
    · exact ⟨by decide +kernel, by decide +kernel, by decide⟩
    · rcases List.mem_singleton.mp h with rfl
      exact ⟨by decide +kernel, by decide +kernel, by decide⟩
  · decide +kernel

theorem witness_NumberTestsComeFirst :
    let s := shop (order1 .damaged)
    Calm s ∧ (Instr.readQueue lab 512 (some 1)).request? = some (lab, .readQueue 512 (some 1))
      ∧ namedNumber (.readQueue 512 (some 1)) = some 1 ∧ s.cycleRuns = false
      ∧ (∀ start number, Request.readQueue 512 (some 1) = .readQueue start number → 1 ≤ start ∧ start ≤ 512)
      ∧ s.findOrder 2 = none ∧ s.findOrder 1 = some 0 ∧ s.order? 0 = some (order1 .damaged)
      ∧ (order1 .damaged).state = .damaged := by
  refine ⟨⟨rfl, rfl, rfl⟩, rfl, rfl, rfl, ?_, by decide +kernel, by decide +kernel, by decide +kernel, rfl⟩
  intro start number h
  cases h
  decide

/-- The shop with its order on the held list. -/
def heldShop : State :=
  let s := shop (order1 .held)
  { s with orders := { s.orders with heldList := [0] } }

theorem witness_SubmitAndWithdraw :
    (let s := shop (order1 .draft)
     Calm s ∧ CleanStorage s ∧ Names s 1 0 (order1 .draft) ∧ (order1 .draft).lines ≠ []
        ∧ s.cycleRuns = false ∧ s.store.size.bad = false
        ∧ (∀ l ∈ (order1 .draft).lines, s.store.size.value (3 * l.size) ≠ 0)
        ∧ s.orders.heldList = [] ∧ s.queueCount + 440 ≤ 440 ∧ ¬s.queueCount + 441 ≤ 440)
      ∧ (Calm heldShop ∧ CleanStorage heldShop ∧ Names heldShop 1 0 (order1 .held)
        ∧ 0 ∈ heldShop.orders.heldList)
      ∧ (Calm sizeBadShop ∧ CleanStorage sizeBadShop ∧ Names sizeBadShop 1 0 (order1 .draft)
        ∧ sizeBadShop.store.size.bad = true)
      ∧ (let o := { order1 .draft with lines := [lineOf 0 0 1] ++ lineOf 5 0 1 :: [lineOf 6 0 1] }
        Calm (shop o) ∧ CleanStorage (shop o) ∧ Names (shop o) 1 0 o
          ∧ (shop o).store.size.value (3 * 0) ≠ 0 ∧ (shop o).store.size.value (3 * 5) = 0)
      ∧ (let o := { order1 .draft with lines := [] }
        Calm (shop o) ∧ CleanStorage (shop o) ∧ Names (shop o) 1 0 o) := by
  refine ⟨⟨⟨rfl, rfl, rfl⟩, rfl, names_order1 _ (by decide), ?_⟩, ⟨⟨rfl, rfl, rfl⟩, rfl, ?_, by decide⟩,
    ⟨⟨rfl, rfl, rfl⟩, rfl, ?_, rfl⟩, ⟨⟨rfl, rfl, rfl⟩, rfl, ?_, by decide +kernel, by decide +kernel⟩,
    ⟨rfl, rfl, rfl⟩, rfl, ?_⟩
  · decide +kernel
  all_goals exact ⟨by decide +kernel, by decide +kernel, by decide⟩

theorem witness_AdmissionMakesEveryUnit :
    let s := shop (order1 .draft)
    0 < s.orders.slots.length ∧ 0 < s.queue.figures.length
      ∧ totalQuantity (order1 .draft).lines ≤ s.queue.pool.countP Option.isNone := by decide +kernel

theorem witness_CancelActsByState :
    (∀ state : OrderState, state ≠ .damaged → Calm (shop (order1 state))
      ∧ CleanStorage (shop (order1 state)) ∧ Names (shop (order1 state)) 1 0 (order1 state))
      ∧ (Calm heldShop ∧ CleanStorage heldShop ∧ Names heldShop 1 0 (order1 .held)
        ∧ 0 ∈ heldShop.orders.heldList)
      ∧ (let o := { order1 .ready with paid := true }
        Calm (shop o) ∧ CleanStorage (shop o) ∧ Names (shop o) 1 0 o)
      ∧ (let s := waitingPrint loaded .absent
        Calm s ∧ CleanStorage s ∧ Names s 1 0 (order1 .queued) ∧ ∀ id ∈ s.inFlight, id ∉ s.queue.ids)
      ∧ (let s := exposing (order1 .exposing) print1 (some .image) 3
        Calm s ∧ CleanStorage s ∧ Names s 1 0 (order1 .exposing) ∧ s.inFlight = [0]
          ∧ ∀ id ∈ s.inFlight, id ∉ s.queue.ids) := by
  refine ⟨fun state h => ⟨⟨rfl, rfl, rfl⟩, rfl, names_order1 state h⟩,
    ⟨⟨rfl, rfl, rfl⟩, rfl, ⟨by decide +kernel, by decide +kernel, by decide⟩, by decide⟩,
    ⟨⟨rfl, rfl, rfl⟩, rfl, ⟨by decide +kernel, by decide +kernel, by decide⟩⟩,
    ⟨⟨rfl, rfl, rfl⟩, rfl, ⟨by decide +kernel, by decide +kernel, by decide⟩, by decide +kernel⟩,
    ⟨rfl, rfl, rfl⟩, rfl, ⟨by decide +kernel, by decide +kernel, by decide⟩, by decide +kernel,
    by decide +kernel⟩

theorem witness_ReadOrderAndQuoteChangeNothing :
    let s := shop (order1 .draft)
    Calm s ∧ CleanStorage s ∧ Names s 1 0 (order1 .draft) ∧ s.cycleRuns = false
      ∧ s.store.price.bad = false
      ∧ (Calm (s.writing .size) ∧ CleanStorage (s.writing .size) ∧ Names (s.writing .size) 1 0 (order1 .draft)
        ∧ (s.writing .size).cycleRuns = true)
      ∧ (let t := { s with store := { s.store with price := { s.store.price with bad := true } } }
        Calm t ∧ CleanStorage t ∧ Names t 1 0 (order1 .draft) ∧ t.cycleRuns = false
          ∧ t.store.price.bad = true)
      ∧ ∀ state : OrderState, state ≠ .damaged → Calm (shop (order1 state))
        ∧ CleanStorage (shop (order1 state)) ∧ Names (shop (order1 state)) 1 0 (order1 state) :=
  ⟨⟨rfl, rfl, rfl⟩, rfl, names_order1 _ (by decide), rfl, rfl,
    ⟨⟨rfl, rfl, rfl⟩, rfl, ⟨by decide +kernel, by decide +kernel, by decide⟩, rfl⟩,
    ⟨⟨rfl, rfl, rfl⟩, rfl, ⟨by decide +kernel, by decide +kernel, by decide⟩, rfl, rfl⟩,
    fun state h => ⟨⟨rfl, rfl, rfl⟩, rfl, names_order1 state h⟩⟩

theorem witness_FindOrdersAscend :
    let s := shop (order1 .draft)
    Calm s ∧ CleanStorage s
      ∧ (∀ i j a b, s.order? i = some a → s.order? j = some b → 0 < a.number → a.number = b.number → i = j)
      ∧ (9999 < 10000 ∧ ([] : List Byte).length = 0 ∧ 12 < (List.replicate 13 0x41#8).length ∧ 8 < 9 ∧ 31 < 32)
      ∧ s.orders.slots.length = 64 ∧ foundNumbers 1 (.tag [0x41#8]) 0 s = [1]
      ∧ foundNumbers 1 (.tag [0x41#8]) 1 s = [] := by
  refine ⟨⟨rfl, rfl, rfl⟩, rfl, fun i j a b hi hj _ _ => ?_, by decide +kernel⟩
  have only : ∀ k (o : Order), (shop (order1 .draft)).order? k = some o → k = 0 := fun k o h => by
    cases k with
    | zero => rfl
    | succ k => simp [State.order?, shop, linked, State.reset, OrderTable.reset, List.getD] at h
  rw [only i a hi, only j b hj]

/-! ### Witnesses: the Shop Clock -/

theorem witness_SecondEventAdvances :
    Running linked ∧ CleanStorage linked ∧ linked.orders.slots.length = 64
      ∧ (let c : ShopClock := { minute := 10079, second := 59, isSet := true, minuteDue := false }
        c.Wf ∧ c.tick = { minute := 0, second := 0, isSet := true, minuteDue := true }) :=
  ⟨⟨rfl, rfl, rfl⟩, rfl, by decide, ⟨by decide, by decide⟩, by decide⟩

theorem witness_DraftTimeoutFreesIdleDrafts :
    let s := shop { order1 .draft with idle := 600 }
    let t := { s with orders := { s.orders with draftCheckDue := true } }
    Running s ∧ s.orders.slots.length = 64 ∧ s.orders.draftCheckDue = false ∧ Running t ∧ CleanStorage t
      ∧ t.orders.draftCheckDue = true ∧ t.cycleRuns = false ∧ (t.writing .price).cycleRuns = true := by
  refine ⟨⟨rfl, rfl, rfl⟩, by decide, rfl, ⟨rfl, rfl, rfl⟩, rfl, rfl, rfl, rfl⟩

/-- The shop with its clock set to a minute, and a minute event due or not. -/
def atMinute (minute : Nat) (due : Bool) : State :=
  { shop (order1 .queued) with clock := { minute, second := 0, isSet := true, minuteDue := due } }

theorem witness_LateChecks :
    CleanStorage (atMinute 8700 false) ∧ (atMinute 8700 false).orders.slots.length = 64
      ∧ linked.clock.isSet = false ∧ (atMinute 8700 false).clock.isSet = true
      ∧ ((order1 .queued).state = .queued ∧ (order1 .queued).late = false
        ∧ (∃ p ∈ (order1 .queued).promised, (8700 + 10080 - p) % 10080 < 1440)
        ∧ ¬∃ p ∈ (order1 .queued).promised, (8699 + 10080 - p) % 10080 < 1440)
      ∧ Calm (atMinute 8700 false) ∧ Running (atMinute 8700 false)
      ∧ (atMinute 8700 true).clock.minuteDue = true :=
  ⟨rfl, by decide, rfl, rfl, by decide, ⟨rfl, rfl, rfl⟩, ⟨rfl, rfl, rfl⟩, rfl⟩

/-- A late check of orders in slots 0 and 1: their queued units go to the tail of RUSH by ascending slot index,
and ORDER_LATE carries the last number with a count of 2 (R30, R44). -/
theorem test_late_check_moves_the_units :
    let s := atMinute 8700 false
    let t := lateCheck { s with
      orders := { s.orders with slots := s.orders.slots.set 1 (some { order1 .fault with number := 7 }) }
      queue := { s.queue with
        pool := (s.queue.pool.set 0 (some { print1 with slot := some 1, number := some 7 })).set 1
          (some print1)
        standard := [0, 1], rush := [9] } }
    t.queue.rush = [9, 1, 0] ∧ t.queue.standard = []
      ∧ t.notices.kinds[10]?.map (fun n : Notice => (n.count, n.detail)) = some (2, some 7) := by
  decide +kernel

/-! ### Witnesses: the Exposure Queue -/

/-- A print of a surface. -/
def surfacePrint (surface : Nat) : PrintUnit := { print1 with surface }

/-- A queue of the units given, in records 0 on, with surface 0's paper active and surface 1's the other. -/
def queueOf (units : List PrintUnit) (strip rush standard : List Nat) (run : Nat) : State :=
  let s := (shop (order1 .queued)).idleWith loaded { loaded with surface := some 1 }
  { s with queue := { s.queue with
      pool := units.map some ++ List.replicate (512 - units.length) none
      strip, rush, standard, runCount := run } }

/-- Selections over units of given surfaces, records 0 and 1 RUSH, 2 and 3 STANDARD, 4 a strip. -/
def selects (surfaces : List Nat) (strip : List Nat) (run : Nat) : Selection × Nat :=
  let (a, t) := settleSelection
    (queueOf (surfaces.map surfacePrint ++ [strip1]) strip [0, 1] [2, 3] run)
  (a, t.queue.runCount)

theorem witness_SelectionGrantsAnEligibleUnit :
    (waitingPrint loaded .absent).memory.upsets = []
      ∧ (settleSelection (waitingPrint loaded .absent)).1 = .grant 0
      ∧ selects [1, 0, 1, 0] [4] 3 = (.grant 4, 3)
      ∧ selects [1, 0, 1, 0] [] 6 = (.grant 3, 0) ∧ selects [1, 0, 1, 0] [] 5 = (.grant 1, 6)
      ∧ selects [1, 0, 1, 1] [] 9 = (.grant 1, 0) ∧ selects [1, 2, 0, 1] [] 9 = (.switch, 9)
      ∧ selects [2, 2, 0, 0] [] 9 = (.grant 2, 0) ∧ selects [2, 2, 1, 1] [] 9 = (.switch, 9)
      ∧ selects [2, 2, 2, 2] [] 9 = (.none, 9)
      ∧ (let s := queueOf [{ strip1 with surface := 1 }] [0] [] [] 3
        (settleSelection s).1 = .switch ∧ s.unitsInUse ≤ 505
          ∧ (settleSelection { s with engine := { s.engine with selectPending := true } }).1 = .switch
          ∧ 505 < ({ s with queue := { s.queue with rush := List.replicate 505 0 } } : State).unitsInUse
          ∧ (select { s with orders := { s.orders with
              slots := s.orders.slots.set 0 (some (order1 .damaged)) } }).2.queue.strip = [0]) := by
  decide +kernel

theorem witness_HeldTrialsStopAtTheHead :
    (let s := heldShop.oweTrial
     s.orders.trialDue = true ∧ s.cycleRuns = false ∧ s.memory.upsets = [] ∧ s.orders.heldList = 0 :: []
        ∧ s.order? 0 = some (order1 .held) ∧ s.store.size.bad = false
        ∧ (∀ l ∈ (order1 .held).lines, s.store.size.value (3 * l.size) ≠ 0)
        ∧ s.queueCount + (order1 .held).requested ≤ 440)
      ∧ (linked.oweTrial.orders.trialDue = true ∧ linked.oweTrial.orders.heldList = [])
      ∧ (let s := { sizeBadShop.oweTrial with orders := heldShop.oweTrial.orders }
        s.orders.trialDue = true ∧ s.memory.upsets = [] ∧ s.store.size.bad = true
          ∧ s.order? 0 = some (order1 .held))
      ∧ (∀ o ∈ [{ order1 .held with lines := [lineOf 5 0 2] }, { order1 .held with requested := 441 }],
        let s := { heldShop.oweTrial with orders := { heldShop.oweTrial.orders with
          slots := heldShop.orders.slots.set 0 (some o) } }
        s.memory.upsets = [] ∧ s.order? 0 = some o
          ∧ ((∃ l ∈ o.lines, s.store.size.value (3 * l.size) = 0) ∨ 440 < s.queueCount + o.requested)) := by
  decide +kernel

/-- Two held orders: the head fits and is QUEUED, the next has no room and stays with the cause ROOM. -/
theorem test_held_trials_stop_at_a_failing_head :
    let t := runTrials { heldShop.oweTrial with orders := { heldShop.oweTrial.orders with
      slots := heldShop.orders.slots.set 2 (some { order1 .held with number := 2, requested := 439 })
      heldList := [0, 2] } }
    t.orders.heldList = [2] ∧ t.queue.heldCause = some .room ∧ (t.order? 0).map Order.state = some .queued
      ∧ (t.order? 2).map Order.state = some .held := by decide +kernel

theorem witness_SpoilIsReprintedOrMissing :
    (∀ lineage ∈ [0, 1, 2], ∀ spoiled : Bool,
      let u := { print1 with lineage, spoiled, place := .engine }
      let s := exposing (order1 .exposing) u (some .image) 3
      s.memory.upsets = [] ∧ s.unit? 0 = some u ∧ u.kind ≠ .strip ∧ u.void = false ∧ u.slot = some 0
        ∧ s.order? 0 = some (order1 .exposing) ∧ u.number = some (order1 .exposing).number
        ∧ (∃ free < s.queue.pool.length, s.unit? free = none) ∧ s.figures? 0 = some (entry1 []))
      ∧ (∀ surface < 4, ∀ id < 2,
        let s := { linked.withUnit0 strip1 with
          cal := { linked.cal with strip := .out surface id false } }
        s.memory.upsets = [] ∧ s.unit? 0 = some strip1 ∧ strip1.spoiled = false ∧ strip1.kind = .strip
          ∧ s.cal.strip = .out surface id false ∧ (.out 0 1 false : StripRecord) ≠ .out 0 0 false)
      ∧ (let u := { print1 with void := true, place := .engine }
        (exposing (order1 .cancelling) u (some .image) 3).unit? 0 = some u ∧ u.void = true
          ∧ u.spoiled = false)
      ∧ (let u := { print1 with place := .engine }
        (exposing (order1 .damaged) u (some .image) 3).order? 0 = some (order1 .damaged)
          ∧ (exposing { order1 .exposing with number := 5 } u (some .image) 3).unit? 0 = some u
          ∧ u.number ≠ some 5) := by
  decide +kernel

/-- The shop whose order in FAULT misses the copies given. -/
def faultShop (missing : List (Nat × Nat)) : State :=
  let s := shop (order1 .fault)
  { s with queue := { s.queue with figures := s.queue.figures.set 0 (some (entry1 missing)) } }

theorem witness_PromoteAndRetry :
    (let s := waitingPrint loaded .absent
     Calm s ∧ CleanStorage s ∧ Names s 1 0 (order1 .queued) ∧ (order1 .queued).queueClass = .standard)
      ∧ (let o := { order1 .queued with queueClass := .rush }
        Calm (shop o) ∧ CleanStorage (shop o) ∧ Names (shop o) 1 0 o)
      ∧ (Calm (shop (order1 .ready)) ∧ CleanStorage (shop (order1 .ready))
        ∧ Names (shop (order1 .ready)) 1 0 (order1 .ready))
      ∧ (let s := faultShop [(1, 2), (1, 1)]
        Calm s ∧ CleanStorage s ∧ Names s 1 0 (order1 .fault)
          ∧ s.figures? 0 = some (entry1 [(1, 2), (1, 1)]) ∧ s.queueCount + 2 ≤ 440
          ∧ 2 ≤ s.queue.pool.countP Option.isNone
          ∧ (entry1 []).figures.length = (order1 .fault).lines.length
          ∧ ∀ pair ∈ [(1, 2), (1, 1)], 1 ≤ pair.1 ∧ pair.1 ≤ (order1 .fault).lines.length)
      ∧ 440 < (faultShop (List.replicate 441 (1, 1))).queueCount + 441 := by
  refine ⟨⟨⟨rfl, rfl, rfl⟩, rfl, ⟨by decide +kernel, by decide +kernel, by decide⟩, rfl⟩,
    ⟨⟨rfl, rfl, rfl⟩, rfl, ⟨by decide +kernel, by decide +kernel, by decide⟩⟩,
    ⟨⟨rfl, rfl, rfl⟩, rfl, names_order1 _ (by decide)⟩,
    ⟨⟨rfl, rfl, rfl⟩, rfl, ⟨by decide +kernel, by decide +kernel, by decide⟩, ?_⟩, by decide +kernel⟩
  decide +kernel

/-! ### Witnesses: exposure arithmetic and the engine -/

theorem witness_StepSumAndFirstTime :
    (wholeStops (-17), tenths (-17)) = (-2, 3) ∧ (-17 : Int) < 0 ∧ (-17 : Int) % 10 ≠ 0
      ∧ (-60 : Int) / 10 = -(6 : Nat) ∧ (60 : Int) / 10 = (6 : Nat) ∧ (200 : Nat) ≤ 8000 := by decide

theorem witness_ExposureTimesAreBounded :
    (∃ x, dose deliveredCalibration 0 { d := 12, c := 12, m := -12, y := 0 } = x ∧ x.clampR = false
      ∧ x.clampG = false) ∧ (-60 : Int) ≤ 60 := ⟨⟨_, rfl, by decide +kernel⟩, by decide⟩

/-- The linked part with the hold reasons given, HELD. -/
def heldWith (h : HoldSet) : State := { linked with engine := { linked.engine with holds := h } }

theorem witness_HoldRequestsAnswer :
    (Calm linked ∧ linked.engine.holds.labHalt = true ∧ linked.engine.state = .held
      ∧ ({ linked.engine.holds with labHalt := false } : HoldSet).isEmpty = true)
      ∧ (Calm (linked.idleWith loaded .absent) ∧ (linked.idleWith loaded .absent).engine.state = .idle)
      ∧ (let s := heldWith { noHold with cutterFault := true }
        Calm s ∧ s.engine.holds.cutterFault = true ∧ s.engine.state = .held
          ∧ ({ s.engine.holds with cutterFault := false } : HoldSet).isEmpty = true) :=
  ⟨⟨⟨rfl, rfl, rfl⟩, rfl, rfl, rfl⟩, ⟨⟨rfl, rfl, rfl⟩, rfl⟩, ⟨rfl, rfl, rfl⟩, rfl, rfl, rfl⟩

/-- An engine that changes magazines. -/
def switching : State :=
  let s := linked.idleWith loaded loaded
  { s with engine := { s.engine with state := .switching, switchTimer := some 20 } }

theorem witness_MagazinesAreChangedAndSensed :
    Calm switching ∧ switching.engine.state = .switching ∧ Calm linked ∧ linked.engine.state ≠ .switching
      ∧ (350 < 351 ∧ 1 < 2 ∧ linked.engine.magA.present = false)
      ∧ (let s := linked.idleWith loaded { loaded with paperEnd := true }
        Calm s ∧ Running s ∧ s.engine.magA.present = true ∧ s.engine.magA.paperEnd = false
          ∧ s.engine.magB.present = true ∧ s.engine.magB.paperEnd = true)
      ∧ Running linked
      ∧ (let s := exposing (order1 .exposing) print1 (some .image) 3
        Running s ∧ s.engine.active = .a ∧ s.engine.state = .exposing) :=
  ⟨⟨rfl, rfl, rfl⟩, rfl, ⟨rfl, rfl, rfl⟩, nofun, by decide, ⟨⟨rfl, rfl, rfl⟩, ⟨rfl, rfl, rfl⟩, rfl, rfl, rfl, rfl⟩,
    ⟨rfl, rfl, rfl⟩, ⟨rfl, rfl, rfl⟩, rfl, rfl⟩

theorem witness_LutRequestsWriteTheInactiveBank :
    linked.accepts = true ∧ (0 : Nat) = linked.engine.activeBank.val ∧ (1 : Nat) ≠ linked.engine.activeBank.val
      ∧ (∀ level ∈ List.replicate 64 1023, level ≤ 1023) ∧ 192 + (List.replicate 64 1023).length = 256
      ∧ linked.engine.lut0.red.length = 256 ∧ linked.engine.lut0.green.length = 256
      ∧ linked.engine.lut0.blue.length = 256 ∧ linked.engine.lut1.red.length = 256
      ∧ linked.engine.lut1.green.length = 256 ∧ linked.engine.lut1.blue.length = 256 := by
  decide +kernel

theorem witness_ReadsChangeNothing :
    (Calm (shop (order1 .queued)) ∧ CleanStorage (shop (order1 .queued))
      ∧ Names (shop (order1 .queued)) 1 0 (order1 .queued)
      ∧ (shop (order1 .queued)).engine.switchTimer = none ∧ (shop (order1 .queued)).cycleRuns = false)
      ∧ Calm switching ∧ switching.engine.switchTimer = some 20 :=
  ⟨⟨⟨rfl, rfl, rfl⟩, rfl, names_order1 _ (by decide), rfl, rfl⟩, ⟨rfl, rfl, rfl⟩, rfl⟩

/-- READ_QUEUE reads the slot at the held list's head: found DAMAGED, it leaves the list, and the next head's number
is reported (R25, R52, R177, log entry 33). -/
theorem test_read_queue_reads_the_held_head :
    let s := { (heldShop.upset [⟨0, .other 3, 2⟩]) with orders := { heldShop.orders with
      slots := heldShop.orders.slots.set 2 (some { order1 .held with number := 7 }), heldList := [0, 2] } }
    let t := (answerQueue 1 none s).2
    t.orders.heldList = [2] ∧ (t.order? 0).map Order.state = some .damaged ∧ t.notices.code = 1
      ∧ t.orders.trialDue = true := by decide +kernel

/-- A granted unit whose start waits for its settings. -/
def awaiting : State :=
  let s := exposing (order1 .queued) print1 none 0
  { s with engine := { s.engine with awaitingSettings := true } }

theorem witness_UnitStartTakesItsFigures :
    (Running awaiting ∧ CleanStorage awaiting ∧ awaiting.cycleRuns = false
      ∧ awaiting.engine.awaitingSettings = true ∧ awaiting.engine.state = .exposing
      ∧ awaiting.engine.current = some 0 ∧ awaiting.unit? 0 = some { print1 with place := .engine }
      ∧ awaiting.order? 0 = some (order1 .queued) ∧ print1.number = some (order1 .queued).number
      ∧ print1.kind ≠ .strip ∧ print1.slot = some 0 ∧ print1.position = some 1
      ∧ (order1 .queued).lines[1 - 1]? = some (lineOf 0 0 2))
      ∧ (∀ lead ∈ [0, 40], ∀ border ∈ [0, 5], ∀ lampLow : Bool,
        let u := { print1 with lead, border }
        let s := (waitingPrint loaded .absent).withUnit0 u
        let t := { s with engine := { s.engine with holds := { noHold with lampLow } } }
        let passed := if lead = 0 then (if border = 0 then [Phase.lead, .topBorder] else [.lead]) else []
        let next : Phase := if lead = 0 then (if border = 0 then .image else .topBorder) else .lead
        t.memory.upsets = [] ∧ t.cycleRuns = false ∧ t.unit? 0 = some u ∧ t.engine.holds.lampLow = lampLow
          ∧ [Phase.lead, .topBorder, .image, .bottomBorder, .mark]
            = passed ++ next :: [Phase.lead, .topBorder, .image, .bottomBorder, .mark].drop (passed.length + 1)
          ∧ (∀ p ∈ passed, u.phaseLines p = 0) ∧ u.phaseLines next ≠ 0 ∧ u.spoiled = false)
      ∧ (let s := (waitingPrint loaded .absent).withUnit0 strip1
        CleanStorage s ∧ s.cycleRuns = false ∧ s.unit? 0 = some strip1 ∧ strip1.phaseLines .lead ≠ 0
          ∧ strip1.slot = none)
      ∧ (let s := (shop (order1 .damaged)).withUnit0 print1
        CleanStorage s ∧ s.unit? 0 = some print1 ∧ s.order? 0 = some (order1 .damaged))
      ∧ (let s := (shop (order1 .queued)).withUnit0 { print1 with number := some 7 }
        CleanStorage s ∧ s.order? 0 = some (order1 .queued) ∧ some 7 ≠ some (order1 .queued).number) :=
  ⟨⟨⟨rfl, rfl, rfl⟩, rfl, rfl, rfl, rfl, rfl, rfl, rfl, rfl, by decide, rfl, rfl, rfl⟩, by decide +kernel,
    ⟨rfl, rfl, rfl, by decide, rfl⟩, ⟨rfl, rfl, rfl⟩, rfl, rfl, by decide⟩

/-- A unit with a lead of no lines and no border starts in IMAGE: it requests lines 0 and 1 and waits for line 0, and
under LAMP_LOW it is spoiled there, asks for nothing, and its reprint is queued (R76, R87, R92). -/
theorem test_start_with_no_lead :
    let start := fun (lampLow : Bool) =>
      let s := (waitingPrint loaded .absent).withUnit0 { print1 with lead := 0 }
      let t := beginStart 0 { s with
        queue := { s.queue with standard := [] }
        engine := { s.engine with holds := { noHold with lampLow } } }
      (t.engine.phase, t.engine.buffer1, t.engine.buffer2, t.engine.firstLineTimer, t.queue.standard)
    start false = (some .image, .requested 0, .requested 1, true, [])
      ∧ start true = (some .image, .empty, .empty, false, [1]) := by decide +kernel

/-- A boundary that grants a print begins its start at once: EXPOSING, in LEAD, with its handle and its times, the
order EXPOSING and the unit's 3048 lines of paper taken (R71, R75). -/
theorem test_grant_starts_the_unit :
    let t := boundary (waitingPrint loaded .absent)
    t.engine.state = .exposing ∧ t.engine.phase = some .lead ∧ t.engine.current = some 0 ∧ t.engine.handle = 7
      ∧ (t.unit? 0).bind (fun u => u.exposure.map figures) = some [2400, 2400, 2400, 7232]
      ∧ (t.order? 0).map Order.state = some .exposing ∧ t.engine.magA.remaining = 1996952 := by
  decide +kernel

/-- An engine at line 1 of IMAGE with the next line complete in buffer 1. -/
def imageLine : State :=
  let s := exposing (order1 .exposing) print1 (some .image) 1
  { s with engine := { s.engine with
      buffer1 := .complete 2 [{ r := 1, g := 2, b := 3 }], buffer2 := .requested 3 } }

/-- The unit in the engine is printing a line of a phase, with the figures it was given. -/
structure Printing (s : State) (u : PrintUnit) (phase : Phase) : Prop where
  running : Running s
  state   : s.engine.state = .exposing
  timer   : s.engine.firstLineTimer = false
  phase   : s.engine.phase = some phase
  current : s.engine.current = some 0
  unit    : s.unit? 0 = some { u with place := .engine }

theorem Printing.of_exposing (o : Order) (u : PrintUnit) (phase : Phase) (line : Nat) :
    Printing (exposing o u (some phase) line) u phase := ⟨⟨rfl, rfl, rfl⟩, rfl, rfl, rfl, rfl, rfl⟩

/-- An engine at line 1 of IMAGE with the next line complete in buffer 2, or in neither. -/
def imageLine2 (complete : Bool) : State :=
  { imageLine with engine := { imageLine.engine with
      buffer1 := .requested 3, buffer2 := if complete then .complete 2 [] else .requested 2 } }

/-- A bordered print, and a strip, for the phases' ends. -/
def bordered : PrintUnit := { print1 with border := 5 }

/-- LAMP_LOW stands while a unit is at the last line of LEAD. -/
def lampLead (u : PrintUnit) : State :=
  let s := exposing (order1 .exposing) u (some .lead) 39
  { s with engine := { s.engine with holds := { noHold with lampLow := true } } }

/-- Lines within a phase: a LEAD line, an image line in either buffer, an underflow, a spoiled unit's line, and
a strip's lines 399 and 400. -/
theorem witness_LinesFollowAndHandOver :
    (Printing (exposing (order1 .exposing) print1 (some .lead) 38) print1 .lead
      ∧ 38 + 1 < print1.phaseLines .lead)
    ∧ (Printing imageLine print1 .image ∧ imageLine.engine.line + 1 < print1.phaseLines .image
      ∧ imageLine.engine.buffer1 = .complete (imageLine.engine.line + 1) [{ r := 1, g := 2, b := 3 }])
    ∧ (Printing (imageLine2 true) print1 .image
      ∧ (∀ pixels, (imageLine2 true).engine.buffer1 ≠ .complete 2 pixels)
      ∧ (imageLine2 true).engine.buffer2 = .complete 2 [])
    ∧ (Printing (imageLine2 false) print1 .image
      ∧ (∀ pixels, (imageLine2 false).engine.buffer1 ≠ .complete 2 pixels)
      ∧ ∀ pixels, (imageLine2 false).engine.buffer2 ≠ .complete 2 pixels)
    ∧ 1 + 1 < ({ print1 with spoiled := true } : PrintUnit).phaseLines .image
    ∧ (strip1.spoiled = false ∧ strip1.kind = .strip ∧ 399 + 1 < strip1.phaseLines .image) :=
  ⟨⟨.of_exposing .., by decide⟩, ⟨⟨⟨rfl, rfl, rfl⟩, rfl, rfl, rfl, rfl, rfl⟩, by decide +kernel, rfl⟩,
    ⟨⟨⟨rfl, rfl, rfl⟩, rfl, rfl, rfl, rfl, rfl⟩, nofun, rfl⟩,
    ⟨⟨⟨rfl, rfl, rfl⟩, rfl, rfl, rfl, rfl, rfl⟩, nofun, nofun⟩, by decide +kernel, rfl, rfl,
    by decide +kernel⟩

/-- The ends of phases: a bordered and a borderless print at the end of LEAD, the same under LAMP_LOW, a strip,
and the last MARK line with and without a write cycle. -/
theorem witness_LinesFollowAndHandOver_ends :
    (Printing (exposing (order1 .exposing) bordered (some .lead) 39) bordered .lead
      ∧ bordered.phaseLines .lead ≤ 39 + 1 ∧ bordered.phaseLines .topBorder ≠ 0)
    ∧ ((∀ p ∈ [Phase.topBorder], print1.phaseLines p = 0) ∧ print1.phaseLines .image ≠ 0
      ∧ (∀ p ∈ [Phase.topBorder], strip1.phaseLines p = 0) ∧ strip1.phaseLines .image ≠ 0)
    ∧ (Printing (lampLead bordered) bordered .lead ∧ Printing (lampLead print1) print1 .lead
      ∧ (lampLead print1).engine.holds.lampLow = true ∧ print1.border = 0)
    ∧ (let s := exposing (order1 .exposing) print1 (some .mark) 7
      Printing s print1 .mark ∧ s.engine.line + 1 = print1.mark ∧ s.cycleRuns = false
        ∧ s.transit.train.length < 64 ∧ print1.surface < s.cal.surfaces.length
        ∧ Printing (s.writing .price) print1 .mark ∧ (s.writing .price).cycleRuns = true) :=
  ⟨⟨.of_exposing .., by decide, by decide⟩, ⟨by decide, by decide +kernel, by decide, by decide +kernel⟩,
    ⟨⟨⟨rfl, rfl, rfl⟩, rfl, rfl, rfl, rfl, rfl⟩, ⟨⟨rfl, rfl, rfl⟩, rfl, rfl, rfl, rfl, rfl⟩, rfl, rfl⟩,
    .of_exposing .., rfl, rfl, by decide, by decide, ⟨⟨rfl, rfl, rfl⟩, rfl, rfl, rfl, rfl, rfl⟩, rfl⟩

/-- An engine that waits for the first image line. -/
def firstLineWait : State :=
  let s := exposing (order1 .exposing) print1 (some .image) 0
  { s with engine := { s.engine with
      firstLineTimer := true, buffer1 := .requested 0, buffer2 := .requested 1 } }

theorem witness_TimersAndLampSupply :
    (Running linked ∧ linked.engine.switchTimer = none ∧ linked.engine.firstLineTimer = false
      ∧ linked.engine.lampTimer = false ∧ linked.engine.lampIsLow = false)
      ∧ (Running switching ∧ switching.engine.switchTimer = some 20)
      ∧ (Running firstLineWait ∧ firstLineWait.engine.firstLineTimer = true
        ∧ firstLineWait.engine.current = some 0
        ∧ firstLineWait.unit? 0 = some { print1 with place := .engine } ∧ CleanStorage firstLineWait)
      ∧ (let s := heldWith { noHold with lampLow := true }
        let t := { s with engine := { s.engine with lampIsLow := true } }
        Running t ∧ t.engine.holds.lampLow = true ∧ t.engine.state = .held)
      ∧ (let t := { firstLineWait with engine := { firstLineWait.engine with lampTimer := true } }
        Running t ∧ t.engine.lampTimer = true ∧ t.engine.phase = some .image)
      ∧ (let t := { linked with engine := { linked.engine with lampTimer := true } }
        Running t ∧ t.engine.phase = none) :=
  ⟨⟨⟨rfl, rfl, rfl⟩, rfl, rfl, rfl, rfl⟩, ⟨⟨rfl, rfl, rfl⟩, rfl⟩, ⟨⟨rfl, rfl, rfl⟩, rfl, rfl, rfl, rfl⟩,
    ⟨⟨rfl, rfl, rfl⟩, rfl, rfl⟩, ⟨⟨rfl, rfl, rfl⟩, rfl, rfl⟩, ⟨rfl, rfl, rfl⟩, rfl⟩

theorem witness_DeliveriesFillTheirBuffer :
    linked.power = .on ∧ linked.engine.current ≠ some 0 ∧ firstLineWait.power = .on
      ∧ firstLineWait.engine.current = some 0 ∧ firstLineWait.engine.buffer1 = .requested 0
      ∧ firstLineWait.engine.buffer2 = .requested 1
      ∧ (List.replicate 2040 (⟨0, 0, 0⟩ : Pixel)).length = print1.width.getD 0 * 20
      ∧ firstLineWait.engine.firstLineTimer = true :=
  ⟨rfl, nofun, rfl, rfl, rfl, rfl, List.length_replicate, rfl⟩

/-! ### Witnesses: the train, the sorter and the counter -/

/-- A train of one entry whose window is 100 ± 40, seen from a path position. -/
def train1 (path : Word32) (pending : Bool) : State :=
  let s := (shop (order1 .exposing)).withUnit0 { print1 with place := .train }
  { s with transit := { s.transit with
      path
      train := [{ unit := 0, mark := 0
                  figures := if pending then none else some { expected := 100, window := 40 } }] } }

theorem witness_MarksAndWindowsCut :
    ({ expected := 100, window := 40 } : CutFigures).window ≤ 255
      ∧ (Running linked ∧ linked.transit.train = []) ∧ Running (train1 59 false) ∧ Running (train1 59 true)
      ∧ ([59, 60, 139, 140].map fun p : Nat =>
          (({ expected := 100, window := 40 } : CutFigures).covers (BitVec.ofNat 32 p),
            headExpired (train1 (BitVec.ofNat 32 p) false)))
        = [(false, false), (true, false), (true, false), (true, true)] := by
  refine ⟨by decide, ⟨⟨rfl, rfl, rfl⟩, rfl⟩, ⟨rfl, rfl, rfl⟩, ⟨rfl, rfl, rfl⟩, by decide +kernel⟩

/-- The shop with a unit on the way to the sorter. -/
def cutShop (o : Order) (u : PrintUnit) : State := (shop o).withUnit0 u

theorem witness_CutPrintsAreRouted :
    (CleanStorage (cutShop (order1 .exposing) print1)
      ∧ (cutShop (order1 .exposing) print1).unit? 0 = some print1 ∧ print1.kind ≠ .strip
      ∧ print1.void = false ∧ print1.spoiled = false ∧ print1.slot = some 0
      ∧ (cutShop (order1 .exposing) print1).order? 0 = some (order1 .exposing)
      ∧ print1.number = some (order1 .exposing).number)
      ∧ (let u := { print1 with void := true }
        let o := { order1 .cancelling with voids := some 1 }
        (cutShop o u).unit? 0 = some u ∧ u.void = true ∧ (cutShop o u).order? 0 = some o)
      ∧ (cutShop (order1 .damaged) print1).order? 0 = some (order1 .damaged)
      ∧ (let s := (cutShop { order1 .exposing with bin := some 24 } print1).withBin 24 (bin1 .filling false false)
        (s.bin 24).state = .filling ∧ (s.bin 24).count < s.sorter.capacity)
      ∧ (let s := (cutShop (order1 .exposing) print1).withBin 1 (bin1 .filling false false)
        (s.bin 2).state = .free ∧ (s.bin 2).isOpen = false ∧ ¬((s.bin 1).state = .free ∧ (s.bin 1).isOpen = false))
      ∧ (order1 .exposing).delivered + 1 ≠ (order1 .exposing).requested
      ∧ linked.store.price.bad = false ∧ linked.cycleRuns = false ∧ linked.orders.slots.length = 64 := by
  refine ⟨⟨rfl, rfl, by decide, rfl, rfl, rfl, rfl, rfl⟩, by decide +kernel⟩

theorem witness_DoorEventsActByBinState :
    ∀ isOpen opened : Bool, ∀ state : BinState,
      let s := (shop { order1 .ready with bin := some 24 }).withBin 24 (bin1 state isOpen opened)
      Running s ∧ CleanStorage s ∧ 1 ≤ 24 ∧ 24 ≤ 24 ∧ s.sorter.bins.length = 24
        ∧ s.bin 24 = bin1 state isOpen opened ∧ (bin1 state isOpen opened).slot = some 0
        ∧ s.order? 0 = some { order1 .ready with bin := some 24 } := by
  intro isOpen opened state
  exact ⟨⟨rfl, rfl, rfl⟩, rfl, by decide, by decide, rfl, rfl, rfl, rfl⟩

/-- A READY order with a stored total of 500. -/
def priced : Order :=
  { order1 .ready with
    price := some { subtotal := 500, rushAdd := 0, lateDiscount := 0, total := 500, writeCount := 0 } }

theorem witness_CounterRequestsAnswer :
    (∀ state : OrderState, state ≠ .damaged → Calm (shop (order1 state))
      ∧ CleanStorage (shop (order1 state)) ∧ Names (shop (order1 state)) 1 0 (order1 state))
      ∧ (Calm (shop priced) ∧ CleanStorage (shop priced) ∧ Names (shop priced) 1 0 priced
        ∧ priced.state = .ready ∧ priced.collected = false ∧ priced.paid = false
        ∧ priced.price.map PriceRecord.total = some 500 ∧ 499 < 500)
      ∧ (let o := { priced with paid := true }
        Calm (shop o) ∧ CleanStorage (shop o) ∧ Names (shop o) 1 0 o)
      ∧ linked.accepts = true :=
  ⟨fun state h => ⟨⟨rfl, rfl, rfl⟩, rfl, names_order1 state h⟩,
    ⟨⟨rfl, rfl, rfl⟩, rfl, ⟨by decide +kernel, by decide +kernel, by decide⟩, rfl, rfl, rfl, rfl, by decide⟩,
    ⟨⟨rfl, rfl, rfl⟩, rfl, ⟨by decide +kernel, by decide +kernel, by decide⟩⟩, rfl⟩

theorem witness_PriceIsFormedByTheRules :
    (∀ surface ≤ 3, (priceSheet [(51, 999)]).value (48 + surface) ≤ 999)
      ∧ (priceSheet [(53, 100)]).value 52 ≤ 100 ∧ (priceSheet [(53, 100)]).value 53 = 100
      ∧ (∀ l ∈ (order1 .complete).lines, l.quantity ≤ 99 ∧ l.surface ≤ 3)
      ∧ totalQuantity (order1 .complete).lines ≤ 400 ∧ ({ order1 .complete with late := true } : Order).late = true
      ∧ deliveredPrice.value 54 = 0 := by decide +kernel

/-! ### Witnesses: calibration -/

/-- A strip in a place of the part, with the strip record as given. -/
def stripShop (r : StripRecord) : State :=
  let s := linked.withUnit0 strip1
  { s with cal := { s.cal with strip := r } }

theorem witness_CalibrationRunsItsCourse :
    (Calm linked ∧ linked.store.calibration.bad = false ∧ linked.cal.strip = .none
      ∧ (∀ id ∈ linked.queue.ids ++ linked.inFlight, linked.unit? id = none)
      ∧ linked.unitsInUse ≤ 504 ∧ linked.cycleRuns = false ∧ 0 < linked.queue.pool.length
      ∧ linked.unit? 0 = none)
      ∧ (Calm (stripShop (.out 0 0 false)) ∧ (stripShop (.out 0 0 false)).cal.strip ≠ .none
        ∧ (stripShop (.out 0 0 false)).unit? 0 = some strip1 ∧ strip1.kind = .strip)
      ∧ (Running linked ∧ ∀ u id k values, linked.cal.strip ≠ .reading u id k values)
      ∧ (Running (stripShop (.reading 0 0 5 [900, 880, 860, 520]))
        ∧ Running (stripShop (.reading 0 0 6 [900, 880, 860, 520, 540])) ∧ 1023 ≤ 1023) :=
  ⟨⟨⟨rfl, rfl, rfl⟩, rfl, rfl, nofun, by decide, rfl, by decide +kernel, rfl⟩,
    ⟨⟨rfl, rfl, rfl⟩, nofun, rfl, rfl⟩, ⟨⟨rfl, rfl, rfl⟩, nofun⟩, ⟨rfl, rfl, rfl⟩, ⟨rfl, rfl, rfl⟩, by decide⟩

theorem witness_ResultMovesTheBalances :
    (takeResult 0 [900, 880, 860, 300, 540, 560] linked).notices.code = 10
      ∧ (takeResult 0 [900, 880, 860, 520, 540, 560] linked).store.calibration.signed 16 = -2 := by
  decide +kernel

/-! ### Witnesses: write cycles, starts and stops -/

theorem witness_CycleEndDoesWhatWaited :
    (Running linked ∧ linked.store.cycle = none) ∧ Running (linked.writing .general)
      ∧ (linked.writing .general).store.cycle = some (cycleOf .general) ∧ CleanStorage (linked.writing .general)
      ∧ (linked.writing .general).orders.slots.length = 64
      ∧ (linked.writing .general).cal.surfaces.length = 4 :=
  ⟨⟨⟨rfl, rfl, rfl⟩, rfl⟩, ⟨rfl, rfl, rfl⟩, rfl, rfl, by decide, by decide⟩

/-- At the end of a CALIBRATION cycle every surface at its interval and not yet due is due, and CAL_DUE counts each
(R144, R183). -/
theorem test_cycle_end_compares_every_surface :
    let s := linked.writing .calibration
    let t := settle (endCycle { s with
      store := { s.store with calibration := { s.store.calibration with
        entries := [44, 45, 46, 47].foldl (fun l i => l.set i 8) s.store.calibration.entries } }
      cal := { s.cal with surfaces := [(8, false), (9, true), (7, false), (9, false)].map (fun (n, due) =>
        { counter := n, due, last := none, checkWaiting := false }) } })
    t.cal.surfaces.map SurfaceCal.due = [true, true, false, true]
      ∧ t.notices.kinds[8]?.map (fun n : Notice => (n.count, n.detail)) = some (2, some 3) := by
  decide +kernel

/-- The part with a request of the lab station that waits on a write cycle. -/
def waitingFor (s : State) (r : Request) (stage : WaitStage) : State :=
  { s with link := { s.link with phase := .working (waiting lab false r 0 stage) } }

theorem witness_WaitingWorkProceeds :
    (∀ state : OrderState, let s := (shop (order1 state)).writing .price
      Calm s ∧ CleanStorage s ∧ s.cycleRuns = true ∧ s.findOrder 1 = some 0 ∧ s.findOrder 2 = none
        ∧ s.order? 0 = some (order1 state))
      ∧ (Names ((shop (order1 .draft)).writing .price) 1 0 (order1 .draft)
        ∧ (∀ a ∈ some 254, 1 ≤ a ∧ a ≤ 254) ∧ (∀ l ∈ some 31, 1 ≤ l ∧ l ≤ 31)
        ∧ (let s := linked.writing .price
          Calm s ∧ s.store.calibration.bad = false ∧ s.cal.strip = .none ∧ s.unitsInUse ≤ 504
            ∧ ¬∃ id ∈ s.queue.ids ++ s.inFlight, ∃ u, s.unit? id = some u ∧ u.kind = .strip))
      ∧ (∀ f ∈ [frameOf 3 0x0F [], frameOf 3 0x28 [4#8, 63#8, 16#8],
          frameOf 3 0x29 [4#8, 63#8, 1#8, 1#8, 0#8, 0#8, 0#8], clockFrame 3],
        let s := (linked.writing .price).received [f]
        Calm s ∧ s.cycleRuns = true ∧ s.link.queue = f :: [] ∧ (f.broadcast = true → f.code = 0x0A)
          ∧ s.link.setUp = true ∧ s.link.lab ≠ some f.source ∧ isRequestCode f.code = true
          ∧ readRequest f.code f.body ∈ [some .halt, some (.storeRead 4 63 16),
            some (.storeWrite 4 63 [1]), some (.setClock 8700 5)])
      ∧ (∀ r : Request, ∀ stage : WaitStage, let s := waitingFor (shop (order1 .draft)) r stage
        Running s ∧ CleanStorage s ∧ s.cycleRuns = false
          ∧ s.link.phase = .working (waiting lab false r 0 stage) ∧ (order1 .draft).idle = 0
          ∧ s.order? 0 = some (order1 .draft))
      ∧ (let s := waitingFor sizeBadShop (.submit 1) (.owner false)
        Running s ∧ CleanStorage s ∧ Names s 1 0 (order1 .draft) ∧ s.store.size.bad = true
          ∧ (order1 .draft).lines ≠ [])
      ∧ (let s := waitingFor linked .halt .rights
        Running s ∧ s.link.setUp = true ∧ isRequestCode 0x0F = true ∧ readRequest 0x0F [] = some .halt
          ∧ s.link.queue.length = 0)
      ∧ Running (linked.writing .price)
      ∧ (let s := waitingPrint loaded .absent
        let t := { s with engine := { s.engine with selectionWaiting := true } }
        Running t ∧ t.cycleRuns = false ∧ t.engine.selectionWaiting = true ∧ t.engine.state = .idle
          ∧ t.engine.holds.isEmpty = true ∧ t.link.phase ≠ .resetting
          ∧ Running { t with link := { t.link with phase := .resetting } })
      ∧ (let t := { switching with engine := { switching.engine with switchWaiting := true } }
        Running t ∧ t.engine.switchWaiting = true)
      ∧ Running (stripShop (.settling 0 [900, 880, 860, 520, 540, 560]))
      ∧ (Running linked ∧ linked.link.phase = .idle ∧ linked.cal.strip = .none) := by
  refine ⟨fun state => ⟨⟨rfl, rfl, rfl⟩, rfl, rfl, ?_, ?_, rfl⟩,
    ⟨⟨by decide +kernel, by decide +kernel, by decide⟩, by decide, by decide, ⟨rfl, rfl, rfl⟩, rfl, rfl,
      by decide, nofun⟩,
    fun f h => ⟨⟨rfl, rfl, rfl⟩, rfl, rfl, ?_⟩,
    fun r stage => ⟨⟨rfl, rfl, rfl⟩, rfl, rfl, rfl, rfl, rfl⟩,
    ⟨⟨rfl, rfl, rfl⟩, rfl, ⟨by decide +kernel, by decide +kernel, by decide⟩, rfl, by decide⟩,
    ⟨⟨rfl, rfl, rfl⟩, rfl, rfl, by decide +kernel, rfl⟩, ⟨rfl, rfl, rfl⟩,
    ⟨⟨rfl, rfl, rfl⟩, rfl, rfl, rfl, rfl, nofun, ⟨rfl, rfl, rfl⟩⟩,
    ⟨⟨rfl, rfl, rfl⟩, rfl⟩, ⟨rfl, rfl, rfl⟩, ⟨rfl, rfl, rfl⟩, rfl, rfl⟩
  · cases state <;> decide +kernel
  · cases state <;> decide +kernel
  · revert f
    decide +kernel

/-- The linked part with the check value of a sheet spoilt, as a cut write cycle may leave it. -/
def spoilt (name : SheetName) : State :=
  { linked with store := linked.store.setSheet name { linked.store.sheet name with
      entries := (linked.store.sheet name).entries.set 63 0xFFFFFFFF } }

theorem witness_ColdStartSetsEveryBlock :
    linked.store.cycle = none ∧ (∀ name, checkAgrees (linked.store.sheet name).entries = true)
      ∧ ∀ name, (spoilt name).store.cycle = none ∧ CleanStorage (spoilt name)
        ∧ checkAgrees ((spoilt name).store.sheet name).entries = false :=
  ⟨rfl, fun name => by cases name <;> decide +kernel,
    fun name => by cases name <;> exact ⟨rfl, rfl, by decide +kernel⟩⟩

/-- A retained start that finds SIZE BAD holds the engine by SHEET_BAD beside LAB_HALT and raises STORE_SHEET_BAD with
the sheet's code 0 (R72, R94, R184). -/
theorem test_start_finds_a_bad_sheet :
    let t := retainedStart (sensedA paper102) [] (spoilt .size)
    t.store.size.bad = true ∧ t.engine.holds = { noHold with labHalt := true, sheetBad := true }
      ∧ t.notices.kinds[1]?.map (fun n : Notice => (n.count, n.detail)) = some (1, some 0) := by
  decide +kernel

theorem witness_StartsAndResetsStopThePath :
    (CleanStorage linked ∧ linked.store.cycle = none
      ∧ ∀ name, checkAgrees (linked.store.sheet name).entries = true ∧ (linked.store.sheet name).bad = false)
      ∧ (let s := { linked with link := { linked.link with phase := .resetting } }
        s.power = .on ∧ s.link.phase = .resetting ∧ s.cycleRuns = false ∧ CleanStorage s)
      ∧ linked.link.phase ≠ .resetting ∧ linked.engine.state ≠ .idle
      ∧ (let s := exposing (order1 .exposing) print1 (some .image) 3
        CleanStorage s ∧ s.unit? 0 = some { print1 with place := .engine }
          ∧ s.order? 0 = some (order1 .exposing) ∧ 1 < s.queue.pool.length ∧ s.unit? 1 = none
          ∧ ∀ k < 1, (s.unit? k).isSome = true)
      ∧ (∀ void : Bool,
        let o := if void then { order1 .cancelling with voids := some 2 } else order1 .exposing
        let s := exposing o { print1 with void } (some .image) 3
        let flight := s.transit.train.map TrainEntry.unit ++ s.engine.current.toList
        s.memory.upsets = [] ∧ flight = [0] ∧ s.cal.strip = .none ∧ 0 ∉ s.queue.ids
          ∧ (s.unit? 0).isSome = true ∧ s.unit? 1 = none ∧ s.order? 0 = some o
          ∧ (o.state = .cancelling → void = true))
      ∧ (linked.orders.slots.length = 64 ∧ linked.order? 63 = none ∧ (shop (order1 .held)).memory.upsets = []
        ∧ (shop (order1 .held)).order? 0 = some (order1 .held)) :=
  ⟨⟨rfl, rfl, fun name => by cases name <;> decide +kernel⟩, ⟨rfl, rfl, rfl, rfl⟩, nofun, nofun,
    ⟨rfl, rfl, rfl, by decide +kernel, rfl, by decide +kernel⟩, by decide +kernel, by decide +kernel⟩

/-- A warm reset abandons a magazine change: the timer stops, the actuator goes back to the active magazine A, which
stays, and a pending SELECT_MAGAZINE is forgotten (R94, R95). -/
theorem test_warm_reset_abandons_a_magazine_change :
    let e := { switching.engine with actuator := .b, selectPending := true, lampIsLow := true }
    let t := warmReset paper102 paper102 { switching with engine := e }
    t.engine.state = .held ∧ t.engine.switchTimer = none ∧ t.engine.actuator = .a ∧ t.engine.active = .a
      ∧ t.engine.selectPending = false ∧ t.engine.lampTimer = true := by decide +kernel

/-- A queued strip's record is FREE again when the reprints are made, so the engine's unit, in record 1, is
reprinted in the strip's record 0 (R54, steps 2 and 3). -/
theorem test_reprint_takes_the_queued_strip_record :
    let s := exposing (order1 .exposing) print1 (some .image) 3
    let t := stopPath { s with
      queue := { s.queue with
        strip := [0]
        pool := (s.queue.pool.set 0 (some strip1)).set 1 (some { print1 with place := .engine }) }
      engine := { s.engine with current := some 1 } }
    t.queue.standard = [0] ∧ t.queue.strip = [] ∧ (t.unit? 0).map PrintUnit.kind = some .reprint
      ∧ t.unit? 1 = none := by decide +kernel

theorem witness_StoppingCutsAWriteCycle :
    ({ linked with power := .off } : State).power = .off ∧ linked.power ≠ .off ∧ linked.store.cycle = none
      ∧ (linked.writing .price).store.cycle = some (cycleOf .price)
      ∧ ((linked.writing .price).store.sheet .price).entries.length = 64
      ∧ (cycleOf .price).before.length = 64 :=
  ⟨rfl, nofun, rfl, rfl, by decide +kernel, by decide +kernel⟩

end Sys2Proof.Tests
end

section
/-! Sound states: the reset state is sound, and every step keeps a sound state sound (O3, O4). -/

namespace Sys2Proof.Machine

/-- A delivered sheet has 64 entries, four page flags and agrees with its check value (log entry 3). -/
theorem deliveredSheet_judged {entries : List Word32} (h : entries.length = 63) :
    (deliveredSheet entries).Wf ∧ checkAgrees (deliveredSheet entries).entries = true :=
  have h64 : (entries ++ [0]).length = 64 := by simp [h]
  ⟨⟨by simp [deliveredSheet, sealEntries_length, h], rfl, Nat.zero_le _⟩, sealEntries_agrees _ h64⟩

/-- Every sheet of a new part is a delivered sheet. -/
theorem reset_sheet (name : SheetName) :
    ∃ entries : List Word32, entries.length = 63 ∧ SettingsStore.reset.sheet name = deliveredSheet entries := by
  cases name <;> exact ⟨_, by simp [generalDefaults], rfl⟩

/-- Settles O3. -/
theorem resetIsSound : Obligations.ResetIsSound := by
  refine ⟨⟨by simp [State.shape, State.partShape, State.reset, OrderTable.reset, ExposureQueue.reset, Sorter.reset,
      CalibrationUnit.reset, NoticeUnit.reset], ⟨by decide, by decide⟩, NoticeUnit.reset_wf, LinkController.reset_wf,
    Nat.zero_le _, fun name => ?_, fun _ name => ?_⟩, TrainBounded.of_eq (TrainBounded.at_start rfl rfl rfl rfl) rfl rfl rfl rfl⟩
  · obtain ⟨entries, hlen, heq⟩ := reset_sheet name
    exact heq ▸ (deliveredSheet_judged hlen).1
  · obtain ⟨entries, hlen, heq⟩ := reset_sheet name
    have hs : State.reset.store.sheet name = deliveredSheet entries := heq
    exact ⟨fun _ => hs ▸ (deliveredSheet_judged hlen).2, fun hbad => by rw [hs] at hbad; cases hbad⟩

/-- An event that only feeds the receiver keeps a sound state sound. -/
theorem Safe.after_linkEvent {s : State} {f : LinkController → LinkController}
    (hf : s.link.Wf → (f s.link).Wf) : Safe s (whileOn (fun s => s.mapLink f) s) :=
  (Safe.refl s).after_whileOn ((Safe.refl s).after_mapLink hf)

/-- A request row whose decision is the owning block's keeps a sound state sound. -/
theorem Safe.of_serve {s : State} (h : Header) (r : Request) (source queued : Nat) (resumed : Bool) :
    Safe s (serve h r (decideRequest source queued resumed r) s) :=
  (Safe.refl s).after_serve (Safe.refl s).after_decideRequest

theorem Safe.of_serveActing {s : State} (h : Header) (r : Request) (source queued : Nat) (resumed : Bool) :
    Safe s (serveActing h r (decideRequest source queued resumed r) s) :=
  (Safe.refl s).after_serveActing (Safe.refl s).after_decideRequest

/-- An event that changes only what `Keeps` covers, and its settlement, keep a sound state sound. -/
theorem Safe.of_event {s : State} {event : State → State} (he : Keeps s (event s)) :
    Safe s (whileOnActing event s) :=
  (Safe.refl s).after_whileOnActing he.safe

/-- What every command keeps: a sound state sound, the train bounded, the queue of commands. -/
theorem exec_safe (c : Instr) (s : State) : ∃ t, exec c s = .next t ∧ Safe s t := by
  have same := Safe.refl s
  have keeps := Keeps.refl s
  have leaves := Leaves.refl s
  cases c with
  | coldStart sensed => exact ⟨_, rfl, same.after_coldStart⟩
  | retainedStart sensed upsets => exact ⟨_, rfl, same.after_retainedStart⟩
  | resetInputAsserted =>
    refine ⟨_, rfl, ?_⟩
    split
    · exact same
    · exact same.after_stopPart nofun
  | warmResetEffect magA magB =>
    refine ⟨_, rfl, ?_⟩
    split
    · exact same.after_warmReset
    · exact same
  | powerLoss =>
    refine ⟨_, rfl, ?_⟩
    split
    · exact same
    · exact same.after_stopPart nofun
  | frameReceived line => exact ⟨_, rfl, Safe.after_linkEvent takeMarker_wf⟩
  | linkCharacterError => exact ⟨_, rfl, Safe.after_linkEvent dropGathered_wf⟩
  | frameOversize => exact ⟨_, rfl, Safe.after_linkEvent dropGathered_wf⟩
  | markerReceivedInHunt =>
    exact ⟨_, rfl, Safe.after_linkEvent fun w => ⟨w.queue, w.lab, w.overflow, w.badForm, w.badCheck, w.badSource, w.overrun⟩⟩
  | requestTaken => exact ⟨_, rfl, same.after_whileOnActing same.after_takeRequest⟩
  | responseSent => exact ⟨_, rfl, same.after_whileOn same.after_responseSent⟩
  | openOrder h cls promise customerTag => exact ⟨_, rfl, .of_serveActing h (.openOrder cls promise customerTag) h.source 0 false⟩
  | addLine h number line => exact ⟨_, rfl, .of_serveActing h (.addLine number line) 0 0 false⟩
  | changeLine h number position line => exact ⟨_, rfl, .of_serveActing h (.changeLine number position line) 0 0 false⟩
  | dropLine h number position => exact ⟨_, rfl, .of_serveActing h (.dropLine number position) 0 0 false⟩
  | submit h number => exact ⟨_, rfl, .of_serveActing h (.submit number) 0 0 false⟩
  | withdraw h number => exact ⟨_, rfl, .of_serveActing h (.withdraw number) 0 0 false⟩
  | cancel h number => exact ⟨_, rfl, .of_serveActing h (.cancel number) 0 0 false⟩
  | readOrder h number => exact ⟨_, rfl, .of_serveActing h (.readOrder number) 0 0 false⟩
  | findOrders h selector start => exact ⟨_, rfl, .of_serveActing h (.findOrders selector start) h.source 0 false⟩
  | setClock h minute second => exact ⟨_, rfl, .of_serveActing h (.setClock minute second) 0 0 false⟩
  | retryFault h number => exact ⟨_, rfl, .of_serveActing h (.retryFault number) 0 0 false⟩
  | promote h number => exact ⟨_, rfl, .of_serveActing h (.promote number) 0 0 false⟩
  | readQueue h start number => exact ⟨_, rfl, .of_serveActing h (.readQueue start number) 0 0 false⟩
  | resume h => exact ⟨_, rfl, .of_serveActing h .resume 0 0 false⟩
  | selectMagazine h => exact ⟨_, rfl, .of_serveActing h .selectMagazine 0 0 false⟩
  | loadMagazine h magazine metres => exact ⟨_, rfl, .of_serveActing h (.loadMagazine magazine metres) 0 0 false⟩
  | clearFault h clearCounts => exact ⟨_, rfl, .of_serveActing h (.clearFault clearCounts) 0 0 false⟩
  | collect h number => exact ⟨_, rfl, .of_serveActing h (.collect number) 0 0 false⟩
  | quote h number => exact ⟨_, rfl, .of_serveActing h (.quote number) 0 0 false⟩
  | pay h number amount => exact ⟨_, rfl, .of_serveActing h (.pay number amount) 0 0 false⟩
  | startCal h surface => exact ⟨_, rfl, .of_serveActing h (.startCal surface) 0 0 false⟩
  | waiveCal h surface => exact ⟨_, rfl, .of_serveActing h (.waiveCal surface) 0 0 false⟩
  | releaseDamaged h slot => exact ⟨_, rfl, .of_serveActing h (.releaseDamaged slot) 0 0 false⟩
  | readClock h => exact ⟨_, rfl, .of_serve h .readClock 0 0 false⟩
  | halt h => exact ⟨_, rfl, .of_serve h .halt 0 0 false⟩
  | lutWrite h bank channel start levels => exact ⟨_, rfl, .of_serve h (.lutWrite bank channel start levels) 0 0 false⟩
  | lutSwitch h => exact ⟨_, rfl, .of_serve h .lutSwitch 0 0 false⟩
  | readEngine h => exact ⟨_, rfl, .of_serve h .readEngine 0 0 false⟩
  | readTrain h place => exact ⟨_, rfl, .of_serve h (.readTrain place) 0 0 false⟩
  | readBins h => exact ⟨_, rfl, .of_serve h .readBins 0 0 false⟩
  | emptyTrays h selection => exact ⟨_, rfl, .of_serve h (.emptyTrays selection) 0 0 false⟩
  | readCal h surface => exact ⟨_, rfl, .of_serve h (.readCal surface) 0 0 false⟩
  | linkSetup h address lab => exact ⟨_, rfl, .of_serve h (.linkSetup address lab) 0 0 false⟩
  | reset h => exact ⟨_, rfl, .of_serve h .reset 0 0 false⟩
  | readViolation h => exact ⟨_, rfl, .of_serve h .readViolation 0 0 false⟩
  | clearViolation h => exact ⟨_, rfl, .of_serve h .clearViolation 0 0 false⟩
  | readNotices h => exact ⟨_, rfl, .of_serve h .readNotices 0 0 false⟩
  | clearNotice h kind => exact ⟨_, rfl, .of_serve h (.clearNotice kind) 0 0 false⟩
  | setNoticeEnables h mask => exact ⟨_, rfl, .of_serve h (.setNoticeEnables mask) 0 0 false⟩
  | storeRead h sheet start count => exact ⟨_, rfl, .of_serve h (.storeRead sheet start count) 0 0 false⟩
  | storeWrite h sheet start values => exact ⟨_, rfl, .of_serve h (.storeWrite sheet start values) 0 0 false⟩
  | readLink h => exact ⟨_, rfl, .of_serve h .readLink 0 s.link.queue.length false⟩
  | writeCycleEnd => exact ⟨_, rfl, same.after_whileOnActing same.after_endCycle⟩
  | waitingReadProceeds work => exact ⟨_, rfl, same.after_whileOnActing same.after_proceed⟩
  | secondEvent => exact ⟨_, rfl, same.after_whileOnActing same.after_takeSecond⟩
  | draftTimeout => exact ⟨_, rfl, .of_event leaves.after_draftTimeouts.keeps⟩
  | minuteEvent => exact ⟨_, rfl, same.after_whileOnActing same.after_takeMinute⟩
  | linePeriodEnd => exact ⟨_, rfl, .of_event keeps.after_endLine⟩
  | switchTimerExpiry => exact ⟨_, rfl, .of_event keeps.after_switchExpired⟩
  | firstLineTimeout => exact ⟨_, rfl, .of_event keeps.after_firstLineExpired⟩
  | imageDelivery unit line pixels => exact ⟨_, rfl, same.after_whileOn keeps.after_takeDelivery.safe⟩
  | lampSupplyLow =>
    obtain ⟨holds, current, state⟩ := lampGoesLow_same s.engine
    exact ⟨_, rfl, same.after_whileOn (keeps.after_mapEngine holds current state).safe⟩
  | lampSupplyRecovery => exact ⟨_, rfl, .of_event keeps.after_lampRecovers⟩
  | lampTimerExpiry => exact ⟨_, rfl, .of_event keeps.after_lampExpired⟩
  | magazineInserted magazine widthCode surfaceCode paperEnd => exact ⟨_, rfl, .of_event keeps.after_insertMagazine⟩
  | magazineRemoved magazine => exact ⟨_, rfl, .of_event keeps.after_removeMagazine⟩
  | paperEnd magazine => exact ⟨_, rfl, .of_event keeps.after_takePaperEnd⟩
  | paperEndClear magazine => exact ⟨_, rfl, .of_event keeps.after_clearPaperEnd⟩
  | encoderEvent => exact ⟨_, rfl, same.after_whileOn (keeps.after_mapTransit rfl).safe⟩
  | windowExpiry => exact ⟨_, rfl, .of_event keeps.after_expireAll⟩
  | markEvent => exact ⟨_, rfl, .of_event keeps.after_takeMark⟩
  | conversionEnd value => exact ⟨_, rfl, same.after_whileOnActing same.after_takeConversion⟩
  | binDoorOpen bin => exact ⟨_, rfl, .of_event leaves.after_doorOpens.keeps⟩
  | binDoorClose bin => exact ⟨_, rfl, .of_event leaves.after_doorCloses.keeps⟩

/-- One step keeps what the front command keeps; the queue of commands is no part of it. -/
theorem step_safe {s t : State} (h : step s = .next t) : (Sound s → Sound t) ∧ (TrainBounded s → TrainBounded t) := by
  cases hp : s.pending with
  | nil =>
    obtain rfl : s = t := by simpa [step, hp] using h
    exact ⟨id, id⟩
  | cons c rest =>
    obtain ⟨t', hexec, safe⟩ := exec_safe c (s.withPending rest)
    obtain rfl : t' = t := by simpa [step, hp, hexec] using h
    exact ⟨fun w => safe.sound ⟨w.shape, w.clock, w.notices, w.link, w.corrections, w.sheets, w.checked⟩,
      fun w => safe.train ⟨w.length, w.full, w.room, w.idle⟩⟩

/-- Settles O4: every command is one of the operations that keep a sound state sound (`exec_safe`). -/
theorem soundIsKept : Obligations.SoundIsKept := fun _ _ sound h => (step_safe h).1 sound

end Sys2Proof.Machine
end

section
/-! How a request row ends: the owning block's decision becomes the response (R162), for every request at once. -/

namespace Sys2Proof.Machine

/-- The row of a request hands it to its owning block, with or without an end of the step that acts (R13, R48). -/
theorem exec_request {c : Instr} {h : Header} {r : Request} (hc : c.request? = some (h, r)) (s : State) :
    exec c s = .next (serve h r (decideRequest h.source s.link.queue.length false r) s)
      ∨ exec c s = .next (serveActing h r (decideRequest h.source s.link.queue.length false r) s) := by
  cases c with
  | readClock | halt | lutWrite | lutSwitch | readEngine | readTrain | readBins | emptyTrays | readCal | linkSetup
  | reset | readLink | readViolation | clearViolation | readNotices | clearNotice | setNoticeEnables | storeRead
  | storeWrite => cases hc; exact .inl rfl
  | openOrder | addLine | changeLine | dropLine | submit | withdraw | cancel | readOrder | findOrders | setClock
  | retryFault | promote | readQueue | resume | selectMagazine | loadMagazine | clearFault | collect | quote | pay
  | startCal | waiveCal | releaseDamaged => cases hc; exact .inr rfl
  | _ => cases hc

/-- An answer formed while the link is IDLE is the response being sent. -/
theorem serve_answer {s t : State} {h : Header} {r : Request} {d : State → Reply × State} {status : Status}
    {body : List Byte} (ok : s.accepts = true) (hd : d s = (.answer status body, t)) :
    serve h r d s = t.answered h r status body := by
  rw [serve_accepts ok, hd, conclude_answer]

/-- The same, with the end of the step (R13, R48). -/
theorem serveActing_answer {s t : State} {h : Header} {r : Request} {d : State → Reply × State} {status : Status}
    {body : List Byte} (ok : s.accepts = true) (hd : d s = (.answer status body, t)) :
    serveActing h r d s = settle (t.answered h r status body) := by
  rw [serveActing_accepts ok, hd, conclude_answer]

/-- A request whose block answers and leaves nothing owed ends with its response. -/
theorem exec_answer {c : Instr} {h : Header} {r : Request} (hc : c.request? = some (h, r)) {s t : State}
    {status : Status} {body : List Byte} (ok : s.accepts = true)
    (hd : decideRequest h.source s.link.queue.length false r s = (.answer status body, t))
    (hs : t.queue.signal = false) (ht : t.orders.trialDue = false) :
    exec c s = .next (t.answered h r status body) := by
  rcases exec_request hc s with he | he
  · rw [he, serve_answer ok hd]
  · rw [he, serveActing_answer ok hd, settle_answered hs ht]

/-- A request whose block answers and changes nothing. -/
theorem exec_unchanged {c : Instr} {h : Header} {r : Request} (hc : c.request? = some (h, r)) {s : State}
    {status : Status} {body : List Byte} (calm : Calm s)
    (hd : decideRequest h.source s.link.queue.length false r s = (.answer status body, s)) :
    exec c s = .next (s.answered h r status body) :=
  exec_answer hc calm.accepts hd calm.noSignal calm.noTrial

/-! ### Storage with no wrong bit -/

/-- A freed slot on clean storage: its fields and its figures entry go (R24, R34). -/
theorem freeSlot_clean {s : State} (clean : CleanStorage s) (i : Nat) :
    s.freeSlot i = { s with
      orders := { s.orders with slots := s.orders.slots.set i none }
      queue := { s.queue with figures := s.queue.figures.set i none } } := by
  have hmem : ({ s.memory with upsets := s.memory.upsets.filter fun u => u.slot != i } : RecordMemory) = s.memory := by
    rw [show s.memory.upsets = [] from clean, List.filter_nil, ← show s.memory.upsets = [] from clean]
  simp only [State.freeSlot, hmem]

/-- A slot found by its number is live and holds it. -/
theorem findOrder_some {s : State} {n i : Nat} (h : s.findOrder n = some i) :
    i < s.orders.slots.length ∧ ∃ o, s.order? i = some o ∧ o.number = n := by
  unfold State.findOrder at h
  split at h
  · cases h
  · obtain ⟨hlt, hany, -⟩ := List.findIdx?_eq_some_iff_getElem.mp h
    obtain ⟨o, ho, hn⟩ := (Option.any_eq_true _ _).mp hany
    refine ⟨hlt, o, ?_, by simpa using hn⟩
    simp [State.order?, List.getD_eq_getElem?_getD, List.getElem?_eq_getElem hlt, ho]

/-- A live slot's place lies in the table. -/
theorem order?_lt {s : State} {i : Nat} {o : Order} (h : s.order? i = some o) : i < s.orders.slots.length := by
  by_contra hge
  simp [State.order?, List.getD_eq_getElem?_getD, List.getElem?_eq_none (Nat.le_of_not_lt hge)] at h

/-- The slot's entry of the table. -/
theorem order?_getElem? {s : State} {i : Nat} {o : Order} (h : s.order? i = some o) :
    s.orders.slots[i]? = some (some o) := by
  rw [List.getElem?_eq_getElem (order?_lt h)]
  simpa [State.order?, List.getD_eq_getElem?_getD, List.getElem?_eq_getElem (order?_lt h)] using h

/-- Writing the order that a slot holds changes nothing. -/
theorem set_order?_self {s : State} {i : Nat} {o : Order} (h : s.order? i = some o) :
    s.orders.slots.set i (some o) = s.orders.slots := by
  apply List.ext_getElem?
  intro k
  rw [List.getElem?_set]
  split
  · next hk => subst hk; rw [if_pos (order?_lt h), order?_getElem? h]
  · rfl

end Sys2Proof.Machine

namespace Sys2Proof.Machine

/-! ### The end of a step (O6) -/

/-- A figure of the GENERAL sheet that is read: the sheet's own, or its default while the sheet is BAD (R184). -/
theorem generalFigure_eq (general : Sheet) (k : Nat) :
    general.generalFigure k = if general.bad = true then generalDefaults.getD k 0 else general.value k := rfl

/-- With no reason present and no cycle running a boundary is the selection of an IDLE engine (R71). -/
theorem boundary_selects {s : State} (free : s.engine.holds.isEmpty = true) (idle : s.cycleRuns = false) :
    boundary s = makeSelection (s.mapEngine fun e => { e with state := .idle }) := by
  unfold boundary
  rw [if_pos free]
  exact if_neg (Bool.eq_false_iff.mp idle)

/-- A change of magazine begins (R84). -/
theorem beginChange_eq (s : State) : beginChange s = { s with engine :=
    let changing := { s.engine with state := .switching, selectPending := false }
    if s.cycleRuns = true then { changing with switchWaiting := true }
    else { changing with
      switchWaiting := false, actuator := s.engine.active.other
      switchTimer := some (if s.store.general.bad = true then 20 else s.store.general.value 7) } } := by
  unfold beginChange
  cases hr : s.cycleRuns
  · exact if_neg (Bool.eq_false_iff.mp hr)
  · exact if_pos hr

/-- A boundary that owes no trial answers the signal of an IDLE engine's queue. -/
theorem settle_boundary {s : State} (ht : s.orders.trialDue = false) (idle : s.engine.state = .idle)
    (hs : s.queue.signal = true) (hw : s.engine.selectionWaiting = false)
    (hb : (boundary s).orders.trialDue = false) :
    settle s = { boundary s with queue := { (boundary s).queue with signal := false } } := by
  have hanswer : answerSignal s = boundary s := by simp [answerSignal, hs, idle, hw]
  simp only [settle, runTrials_none ht, hanswer, runTrials_none hb]

/-- Settles O6. -/
theorem settleAnswersTheSignal : Obligations.SettleAnswersTheSignal := by
  refine ⟨fun s held => ?_, fun s free runs => ?_, fun s free idle => ?_, beginChange_eq,
    fun s hs ht => settle_calm hs ht, fun s ht hb => settle_busy ht hb,
    fun s ht idle hs hw hb => settle_boundary ht idle hs hw hb⟩
  · simp [boundary, held, State.mapEngine]
  · unfold boundary
    rw [if_pos free]
    exact if_pos runs
  · rw [boundary_selects free idle]
    refine ⟨fun t ht => ?_, fun id t ht => ?_, fun t ht => ?_⟩ <;>
      · unfold makeSelection
        simp only [State.mapEngine, ht]

end Sys2Proof.Machine
end

section
/-! Opening an order: the first free number and the lowest FREE slot (R4, R6; O23, O24). -/

namespace Sys2Proof.Machine

/-! ### The first free number (R4) -/

/-- The number that lies `k` steps above a start in 1..9999, with wrap. -/
def numberAfter (start k : Nat) : Nat := (start - 1 + k) % 9999 + 1

theorem nextNumber_numberAfter (start k : Nat) : nextNumber (numberAfter start k) = numberAfter start (k + 1) := by
  unfold nextNumber numberAfter
  split <;> omega

theorem numberAfter_inj {start j k : Nat} (hj : j ≤ 64) (hk : k ≤ 64) (h : numberAfter start j = numberAfter start k) :
    j = k := by
  unfold numberAfter at h
  omega

/-- The search stops at the first number that no live slot holds, or at its bound. -/
theorem freeNumber_spec (s : State) (start : Nat) : ∀ fuel k, ∃ steps ≤ fuel,
    freeNumber s fuel (numberAfter start k) = numberAfter start (k + steps)
      ∧ (steps < fuel → s.findOrder (numberAfter start (k + steps)) = none)
      ∧ ∀ j < steps, (s.findOrder (numberAfter start (k + j))).isSome = true := by
  intro fuel
  induction fuel with
  | zero => exact fun k => ⟨0, Nat.le_refl _, rfl, nofun, nofun⟩
  | succ fuel ih =>
    intro k
    cases held : s.findOrder (numberAfter start k) with
    | none => exact ⟨0, Nat.zero_le _, by simp [freeNumber, held], fun _ => held, nofun⟩
    | some i =>
      obtain ⟨steps, hle, heq, hfree, hheld⟩ := ih (k + 1)
      have hshift : ∀ j, k + 1 + j = k + (j + 1) := by omega
      simp only [hshift] at heq hfree hheld
      refine ⟨steps + 1, by omega, ?_, fun h => hfree (by omega), fun j hj => ?_⟩
      · simp [freeNumber, held, nextNumber_numberAfter, heq]
      · cases j with
        | zero => simp [held]
        | succ j => exact hheld j (by omega)

/-- A slot holds one number. -/
theorem findOrder_inj {s : State} {m n i : Nat} (hm : s.findOrder m = some i) (hn : s.findOrder n = some i) : m = n := by
  obtain ⟨-, o, ho, rfl⟩ := findOrder_some hm
  obtain ⟨-, p, hp, rfl⟩ := findOrder_some hn
  rw [ho] at hp
  cases hp
  rfl

/-- 64 slots cannot hold 65 numbers. -/
theorem exists_free_number {s : State} (start : Nat) (hlen : s.orders.slots.length = 64) :
    ∃ k ≤ 64, s.findOrder (numberAfter start k) = none := by
  by_contra hall
  push Not at hall
  have hsome : ∀ k : Fin 65, ∃ i : Fin 64, s.findOrder (numberAfter start k) = some i.val := by
    intro k
    obtain ⟨i, hi⟩ := Option.ne_none_iff_exists'.mp (hall k (by omega))
    exact ⟨⟨i, hlen ▸ (findOrder_some hi).1⟩, hi⟩
  choose slot hslot using hsome
  obtain ⟨j, k, hne, heq⟩ := Fintype.exists_ne_map_eq_of_card_lt slot (by simp)
  have hnum := findOrder_inj (hslot j) (heq ▸ hslot k)
  exact hne (Fin.ext (numberAfter_inj (by omega) (by omega) hnum))

/-- Settles O23. -/
theorem newNumberIsTheFirstFree : Obligations.NewNumberIsTheFirstFree := by
  intro s start h1 h2 hlen
  obtain ⟨steps, hle, heq, hfree, hheld⟩ := freeNumber_spec s start 64 0
  simp only [Nat.zero_add] at heq hfree hheld
  have hstart : numberAfter start 0 = start := by unfold numberAfter; omega
  rw [hstart] at heq
  refine ⟨steps, hle, heq, ?_, hheld⟩
  obtain ⟨k, hk, hnone⟩ := exists_free_number start hlen
  have hge : steps ≤ k := by
    by_contra hlt
    simpa [hnone] using hheld k (by omega)
  rcases Nat.lt_or_eq_of_le hle with hlt | heq64
  · exact hfree hlt
  · obtain rfl : k = steps := by omega
    exact hnone

/-! ### Opening (R6) -/

/-- On clean storage the slot taken is the first FREE one of those listed. -/
theorem takeFreeSlot_clean {s : State} (clean : CleanStorage s) (is : List Nat) :
    takeFreeSlot is s = (is.find? fun i => (s.order? i).isNone, s) := by
  induction is with
  | nil => rfl
  | cons i rest ih =>
    cases ho : s.order? i with
    | some o => simp [takeFreeSlot, ho, ih]
    | none => simp [takeFreeSlot, ho, readFreeSlot_clean clean]

theorem takeFreeSlot_lowest {s : State} (clean : CleanStorage s) {i : Nat} (hi : i < 64) (free : s.order? i = none)
    (below : ∀ j < i, (s.order? j).isSome = true) : takeFreeSlot slotIndexes s = (some i, s) := by
  rw [takeFreeSlot_clean clean]
  have hfind : (List.range 64).find? (fun i => (s.order? i).isNone) = some i := by
    rw [List.find?_range_eq_some]
    exact ⟨by simp [free], by simpa using hi, fun j hj => by simpa using below j hj⟩
  exact congrArg (·, s) hfind

theorem takeFreeSlot_full {s : State} (clean : CleanStorage s) (full : ∀ i < 64, (s.order? i).isSome = true) :
    takeFreeSlot slotIndexes s = (none, s) := by
  rw [takeFreeSlot_clean clean]
  have hfind : (List.range 64).find? (fun i => (s.order? i).isNone) = none := by
    rw [List.find?_range_eq_none]
    exact fun j hj => by simpa using full j hj
  exact congrArg (·, s) hfind

/-- The operands that OPEN_ORDER refuses (R6). -/
def OpenOrderBad (cls : Nat) (promise : Option Nat) (tag : Option (List Byte)) : Prop :=
  1 < cls ∨ (∃ p ∈ promise, 10079 < p)
    ∨ ∃ t ∈ tag, t.length = 0 ∨ 12 < t.length ∨ ∃ ch ∈ t, ch.toNat < 0x20 ∨ 0x7E < ch.toNat

/-- A tag is refused by its length or by a character that can not be printed. -/
theorem tagValid_eq_false {t : List Byte} :
    tagValid t = false ↔ t.length = 0 ∨ 12 < t.length ∨ ∃ ch ∈ t, ch.toNat < 0x20 ∨ 0x7E < ch.toNat := by
  rw [Bool.eq_false_iff]
  simp only [tagValid, ne_eq, Bool.and_eq_true, decide_eq_true_eq, List.all_eq_true]
  constructor
  · intro h
    by_contra hno
    push Not at hno
    obtain ⟨h1, h2, h3⟩ := hno
    exact h ⟨⟨by omega, h2⟩, h3⟩
  · rintro h ⟨⟨h1, h2⟩, h3⟩
    rcases h with h | h | ⟨ch, hch, h⟩
    · omega
    · omega
    · have := h3 ch hch
      omega

theorem openOrderBad_iff {cls : Nat} {promise : Option Nat} {tag : Option (List Byte)} :
    OpenOrderBad cls promise tag ↔ OrderClass.ofCode cls = none
      ∨ ((promise.any fun p => decide (10079 < p)) || (tag.any fun t => !tagValid t)) = true := by
  have hcls : OrderClass.ofCode cls = none ↔ 1 < cls := by
    match cls with
    | 0 | 1 | n + 2 => simp [OrderClass.ofCode]
  simp [OpenOrderBad, hcls, tagValid_eq_false, Option.any_eq_true]

theorem decideOpenOrder_bad {source cls : Nat} {promise : Option Nat} {tag : Option (List Byte)} {s : State}
    (bad : OpenOrderBad cls promise tag) : decideOpenOrder source cls promise tag s = (.answer .badValue [], s) := by
  unfold decideOpenOrder
  rcases openOrderBad_iff.mp bad with h | h
  · rw [h]; rfl
  · split
    · rfl
    · rw [if_pos h]; rfl

/-- A valid OPEN_ORDER that finds a slot writes the new DRAFT into it. -/
theorem decideOpenOrder_good {source cls i : Nat} {c : OrderClass} {promise : Option Nat} {tag : Option (List Byte)}
    {s : State} (hc : OrderClass.ofCode cls = some c) (good : ¬OpenOrderBad cls promise tag)
    (clean : CleanStorage s) (hslot : takeFreeSlot slotIndexes s = (some i, s)) :
    let number := freeNumber s 64 s.orders.nextNumber
    decideOpenOrder source cls promise tag s = (.answer .ok (item16 number ++ item8 i),
      { s with
        orders := { s.orders with slots := s.orders.slots.set i (some (draftOrder number source c promise tag))
                                  nextNumber := nextNumber number }
        queue := { s.queue with figures := s.queue.figures.set i none } }) := by
  have htests := (not_or.mp (fun h => good (openOrderBad_iff.mpr h))).2
  simp only [decideOpenOrder, hc, htests, hslot, Bool.false_eq_true, if_false, freeSlot_clean clean, okay,
    State.setOrder, List.set_set]

/-- Settles O24. -/
theorem openOrderTakesTheLowestFreeSlot : Obligations.OpenOrderTakesTheLowestFreeSlot := by
  refine ⟨fun h cls c promise tag i s calm clean hc hpromise htag hi free below => ?_,
    fun h cls promise tag s calm clean => ⟨fun bad => ?_, fun good full => ?_⟩⟩
  · have good : ¬OpenOrderBad cls promise tag := by
      rintro (h | ⟨p, hp, h⟩ | ⟨t, ht, h⟩)
      · exact absurd (openOrderBad_iff.mp (.inl h : OpenOrderBad cls none none)) (by simp [hc])
      · exact absurd (hpromise p hp) (by omega)
      · obtain ⟨hlow, hhigh, hchars⟩ := htag t ht
        rcases h with h | h | ⟨ch, hch, h⟩
        · omega
        · omega
        · have := hchars ch hch
          omega
    exact exec_answer (c := .openOrder h cls promise tag) rfl calm.accepts
      (decideOpenOrder_good hc good clean (takeFreeSlot_lowest clean hi free below)) calm.noSignal calm.noTrial
  · exact exec_unchanged (c := .openOrder h cls promise tag) rfl calm (decideOpenOrder_bad bad)
  · refine exec_unchanged (c := .openOrder h cls promise tag) (status := .full) rfl calm ?_
    obtain ⟨hcls, htests⟩ := not_or.mp (fun h => good (openOrderBad_iff.mpr h))
    obtain ⟨c, hc⟩ := Option.ne_none_iff_exists'.mp hcls
    show decideOpenOrder _ _ _ _ _ = _
    simp only [decideOpenOrder, hc, htests, takeFreeSlot_full clean full, Bool.false_eq_true, if_false, refuse]

end Sys2Proof.Machine
end

section
/-! Requests that name an order: the lookup, the tests that come first, line edits, SUBMIT and WITHDRAW (R5 to R14; O25 to
O27). -/

namespace Sys2Proof.Machine

/-! ### The lookup of a named order (R5, R11) -/

/-- An order after a request of the Order Table has named it: a DRAFT's idle seconds are 0 (R11). -/
def touched (o : Order) : Order := if o.state = .draft then { o with idle := 0 } else o

theorem touched_draft {o : Order} (h : o.state = .draft) : touched o = { o with idle := 0 } := if_pos h

theorem touched_other {o : Order} (h : o.state ≠ .draft) : touched o = o := if_neg h

@[simp] theorem touched_state (o : Order) : (touched o).state = o.state := by unfold touched; split <;> rfl

@[simp] theorem touched_lines (o : Order) : (touched o).lines = o.lines := by unfold touched; split <;> rfl

@[simp] theorem touched_requested (o : Order) : (touched o).requested = o.requested := by
  unfold touched; split <;> rfl

/-- Writing the order that a slot holds changes nothing. -/
theorem setOrder_self {s : State} {i : Nat} {o : Order} (h : s.order? i = some o) : s.setOrder i o = s := by
  simp only [State.setOrder, set_order?_self h]

/-- A lookup that touches finds the order touched and leaves it so. -/
theorem lookUp_touched {s : State} {n i : Nat} {o : Order} (clean : CleanStorage s) (named : Names s n i o) :
    lookUp n true s = (.order i (touched o), s.setOrder i (touched o)) := by
  by_cases h : o.state = .draft
  · rw [lookUp_draft clean named h, touched_draft h]
  · rw [lookUp_plain clean named (.inr h), touched_other h, setOrder_self named.held]

/-- An access reads no DAMAGED slot (R178). -/
theorem readSlot_damaged {s : State} {i : Nat} {o : Order} (h : s.order? i = some o) (hd : o.state = .damaged) :
    readSlot i s = s := by
  simp [readSlot, h, hd]

theorem lookUp_damaged {s : State} {n i : Nat} {o : Order} {touch : Bool} (found : s.findOrder n = some i)
    (h : s.order? i = some o) (hd : o.state = .damaged) : lookUp n touch s = (.damaged i o, s) := by
  simp [lookUp, found, readSlot_damaged h hd, h, hd]

/-! ### The tests that come first (O26) -/

/-- A request whose number no live slot holds is refused NO_ORDER by its block (R5). -/
theorem decideRequest_noOrder {source queued n : Nat} {r : Request} {s : State} (named : namedNumber r = some n)
    (idle : s.cycleRuns = false) (range : ∀ start number, r = .readQueue start number → 1 ≤ start ∧ start ≤ 512)
    (h : s.findOrder n = none) : decideRequest source queued false r s = (.answer .noOrder [], s) := by
  cases r with
  | addLine | changeLine | submit =>
    cases named
    simp [decideRequest, decideAddLine, decideChangeLine, decideSubmit, lookUp_none h, idle, refuse]
  | dropLine | withdraw | cancel | readOrder | retryFault | promote | collect | quote | pay =>
    cases named
    simp [decideRequest, decideDropLine, decideWithdraw, decideCancel, decideReadOrder, decideRetryFault, decidePromote,
      decideCollect, decideQuote, decidePay, lookUp_none h, refuse]
  | readQueue start number =>
    cases named
    obtain ⟨h1, h2⟩ := range _ _ rfl
    have hin : ¬(start = 0 ∨ 512 < start) := by omega
    simp [decideRequest, decideReadQueue, hin, lookUp_none h, refuse]
  | _ => cases named

/-- A request whose order is DAMAGED is refused so by its block; READ_ORDER gives the slot and the number (R25). -/
theorem decideRequest_damaged {source queued n i : Nat} {r : Request} {s : State} {o : Order}
    (named : namedNumber r = some n) (idle : s.cycleRuns = false)
    (range : ∀ start number, r = .readQueue start number → 1 ≤ start ∧ start ≤ 512)
    (found : s.findOrder n = some i) (h : s.order? i = some o) (hd : o.state = .damaged) :
    decideRequest source queued false r s = (.answer .damaged
      (if r = .readOrder n then item8 i ++ item16 o.number else []), s) := by
  cases r with
  | addLine | changeLine | submit =>
    cases named
    simp [decideRequest, decideAddLine, decideChangeLine, decideSubmit, lookUp_damaged found h hd, idle, refuse]
  | dropLine | withdraw | cancel | readOrder | retryFault | promote | collect | quote | pay =>
    cases named
    simp [decideRequest, decideDropLine, decideWithdraw, decideCancel, decideReadOrder, decideRetryFault, decidePromote,
      decideCollect, decideQuote, decidePay, lookUp_damaged found h hd, refuse]
  | readQueue start number =>
    cases named
    obtain ⟨h1, h2⟩ := range _ _ rfl
    have hin : ¬(start = 0 ∨ 512 < start) := by omega
    simp [decideRequest, decideReadQueue, hin, lookUp_damaged found h hd, refuse]
  | _ => cases named

/-- Settles O26. -/
theorem numberTestsComeFirst : Obligations.NumberTestsComeFirst := fun _ _ _ _ _ calm hc named idle range =>
  ⟨fun h => exec_unchanged hc calm (decideRequest_noOrder named idle range h),
   fun _ _ found h hd => exec_unchanged hc calm (decideRequest_damaged named idle range found h hd)⟩

/-! ### Line edits (R7 to R11, O25) -/

/-- A full line that ADD_LINE and CHANGE_LINE refuse (R8, test 5). -/
def LineBad (size : Sheet) (item : LineItem) : Prop :=
  item.quantity = 0 ∨ 99 < item.quantity ∨ 15 < item.size ∨ size.value (3 * item.size) = 0 ∨ 3 < item.surface
    ∨ 1 < item.border

theorem borderOfCode_none {n : Nat} : Border.ofCode n = none ↔ 1 < n := by
  match n with
  | 0 | 1 | n + 2 => simp [Border.ofCode]

theorem validLine_none {size : Sheet} {item : LineItem} : validLine size item = none ↔ LineBad size item := by
  unfold validLine LineBad
  split
  · next h => simp only [true_iff]; unfold Sheet.printLength at h; tauto
  · next h =>
    unfold Sheet.printLength at h
    rw [Option.map_eq_none_iff, borderOfCode_none]
    tauto

theorem validLine_some {size : Sheet} {item : LineItem} {b : Border} (good : ¬LineBad size item)
    (hb : Border.ofCode item.border = some b) : validLine size item = some (lineRecord item b) := by
  obtain ⟨l, hl⟩ := Option.ne_none_iff_exists'.mp (fun h => good (validLine_none.mp h))
  unfold validLine at hl ⊢
  split at hl
  · cases hl
  · next h => rw [if_neg h, hb, Option.map_some]

theorem exists_validLine {size : Sheet} {item : LineItem} (good : ¬LineBad size item) :
    ∃ b, validLine size item = some (lineRecord item b) := by
  have hb : Border.ofCode item.border ≠ none := fun h =>
    good (.inr (.inr (.inr (.inr (.inr (borderOfCode_none.mp h))))))
  obtain ⟨b, hb⟩ := Option.ne_none_iff_exists'.mp hb
  exact ⟨b, validLine_some good hb⟩

/-- A correction in range is kept by its clamp. -/
theorem clampCorrection_eq {x : Int} : clampCorrection x = x ↔ -12 ≤ x ∧ x ≤ 12 := by
  unfold clampCorrection clampInt
  omega

theorem lineStatus_eq (l : LineItem) :
    lineStatus l = if ∀ x ∈ [l.d, l.c, l.m, l.y], -12 ≤ x ∧ x ≤ 12 then .ok else .okClamped := by
  have hclamps : lineClamps l = true ↔ ¬∀ x ∈ [l.d, l.c, l.m, l.y], -12 ≤ x ∧ x ≤ 12 := by
    unfold lineClamps
    rw [List.any_eq_true]
    push Not
    exact exists_congr fun x => and_congr_right fun _ => by
      rw [decide_eq_true_eq, ne_eq, clampCorrection_eq]
      omega
  unfold lineStatus
  split <;> split <;> tauto

theorem totalQuantity_append (lines : List Line) (l : Line) :
    totalQuantity (lines ++ [l]) = totalQuantity lines + l.quantity := by
  simp [totalQuantity]

/-- R after a line is replaced: the other lines' prints and the new line's. -/
theorem totalQuantity_set {lines : List Line} {k : Nat} (h : k < lines.length) (l : Line) :
    totalQuantity (lines.set k l) = totalQuantity (lines.eraseIdx k) + l.quantity := by
  have hperm := (List.set_perm_cons_eraseIdx h l).map Line.quantity
  rw [totalQuantity, hperm.sum_eq, List.map_cons, List.sum_cons, Nat.add_comm]
  rfl

/-- A request on a named order whose block leaves another order in the slot, and answers. -/
theorem exec_edits {c : Instr} {h : Header} {r : Request} (hc : c.request? = some (h, r)) {s : State} {i : Nat}
    {o : Order} {status : Status} {body : List Byte} (calm : Calm s)
    (hd : decideRequest h.source s.link.queue.length false r s = (.answer status body, s.setOrder i o)) :
    exec c s = .next (({ s with orders := { s.orders with slots := s.orders.slots.set i (some o) } } :
      State).answered h r status body) :=
  exec_answer hc calm.accepts hd calm.noSignal calm.noTrial

section
variable {s : State} {n i : Nat} {o : Order}

theorem setOrder_cycleRuns (s : State) (i : Nat) (o : Order) : (s.setOrder i o).cycleRuns = s.cycleRuns := rfl

/-- A line edit out of DRAFT is refused (R7, test 3). -/
theorem lineEdit_wrongState (clean : CleanStorage s) (named : Names s n i o) (idle : s.cycleRuns = false)
    (hs : o.state ≠ .draft) (item : LineItem) (position : Nat) :
    decideAddLine false n item s = (.answer .wrongState [], s.setOrder i (touched o))
      ∧ decideChangeLine false n position item s = (.answer .wrongState [], s.setOrder i (touched o)) := by
  simp [decideAddLine, decideChangeLine, lookUp_touched clean named, setOrder_cycleRuns, idle, hs, refuse]

/-- A line edit with the SIZE sheet BAD is refused (R7, test 4). -/
theorem lineEdit_sheetBad (clean : CleanStorage s) (named : Names s n i o) (idle : s.cycleRuns = false)
    (hs : o.state = .draft) (bad : s.store.size.bad = true) (item : LineItem) (position : Nat) :
    decideAddLine false n item s = (.answer .sheetBad [], s.setOrder i (touched o))
      ∧ decideChangeLine false n position item s = (.answer .sheetBad [], s.setOrder i (touched o)) := by
  simp [decideAddLine, decideChangeLine, lookUp_touched clean named, setOrder_cycleRuns, idle, hs, bad, refuse]

theorem decideAddLine_badValue (clean : CleanStorage s) (named : Names s n i o) (idle : s.cycleRuns = false)
    (hs : o.state = .draft) (good : s.store.size.bad = false) {item : LineItem} (bad : LineBad s.store.size item) :
    decideAddLine false n item s = (.answer .badValue [], s.setOrder i (touched o)) := by
  simp [decideAddLine, lookUp_touched clean named, setOrder_cycleRuns, idle, hs, good, validLine_none.mpr bad, refuse]

theorem decideChangeLine_badValue (clean : CleanStorage s) (named : Names s n i o) (idle : s.cycleRuns = false)
    (hs : o.state = .draft) (good : s.store.size.bad = false) {item : LineItem} {position : Nat}
    (bad : (position = 0 ∨ o.lines.length < position) ∨ LineBad s.store.size item) :
    decideChangeLine false n position item s = (.answer .badValue [], s.setOrder i (touched o)) := by
  by_cases outside : position = 0 ∨ o.lines.length < position
  · simp [decideChangeLine, lookUp_touched clean named, setOrder_cycleRuns, idle, hs, good, outside, refuse]
  · have hline := validLine_none.mpr (bad.resolve_left outside)
    simp [decideChangeLine, lookUp_touched clean named, setOrder_cycleRuns, idle, hs, good, outside, hline, refuse]

theorem decideAddLine_tooMany (clean : CleanStorage s) (named : Names s n i o) (idle : s.cycleRuns = false)
    (hs : o.state = .draft) (good : s.store.size.bad = false) {item : LineItem} (fits : ¬LineBad s.store.size item)
    (many : 12 ≤ o.lines.length ∨ 400 < o.requested + item.quantity) :
    decideAddLine false n item s = (.answer .tooMany [], s.setOrder i (touched o)) := by
  obtain ⟨b, hb⟩ := exists_validLine fits
  have hmany : 12 ≤ o.lines.length ∨ 400 < o.requested + (lineRecord item b).quantity := many
  simp [decideAddLine, lookUp_touched clean named, setOrder_cycleRuns, idle, hs, good, hb, hmany, refuse]

theorem decideChangeLine_tooMany (clean : CleanStorage s) (named : Names s n i o) (idle : s.cycleRuns = false)
    (hs : o.state = .draft) (good : s.store.size.bad = false) {item : LineItem} {position : Nat}
    (fits : ¬LineBad s.store.size item) (inside : ¬(position = 0 ∨ o.lines.length < position))
    (many : 400 < totalQuantity (o.lines.eraseIdx (position - 1)) + item.quantity) :
    decideChangeLine false n position item s = (.answer .tooMany [], s.setOrder i (touched o)) := by
  obtain ⟨b, hb⟩ := exists_validLine fits
  have hmany : 400 < totalQuantity (o.lines.set (position - 1) (lineRecord item b)) := by
    rw [totalQuantity_set (by omega)]
    exact many
  simp [decideChangeLine, lookUp_touched clean named, setOrder_cycleRuns, idle, hs, good, inside, hb, hmany, refuse]

theorem decideDropLine_refused (clean : CleanStorage s) (named : Names s n i o) (position : Nat) :
    (o.state ≠ .draft → decideDropLine n position s = (.answer .wrongState [], s.setOrder i (touched o)))
      ∧ (o.state = .draft → position = 0 ∨ o.lines.length < position →
        decideDropLine n position s = (.answer .badValue [], s.setOrder i (touched o))) :=
  ⟨fun hs => by simp [decideDropLine, lookUp_touched clean named, hs, refuse],
   fun hs outside => by simp [decideDropLine, lookUp_touched clean named, hs, outside, refuse]⟩

/-- ADD_LINE appends the line (R8). -/
theorem decideAddLine_taken (clean : CleanStorage s) (named : Names s n i o) (idle : s.cycleRuns = false)
    (hs : o.state = .draft) (hr : o.requested = totalQuantity o.lines) (good : s.store.size.bad = false)
    {item : LineItem} {l : Line} (hl : validLine s.store.size item = some l) (few : o.lines.length < 12)
    (hq : totalQuantity (o.lines ++ [l]) ≤ 400) :
    decideAddLine false n item s = (.answer (lineStatus item)
      (item8 (o.lines ++ [l]).length ++ item16 (totalQuantity (o.lines ++ [l]))),
      s.setOrder i { o with lines := o.lines ++ [l], requested := totalQuantity (o.lines ++ [l]), idle := 0 }) := by
  rw [totalQuantity_append] at hq ⊢
  have hmany : ¬(12 ≤ o.lines.length ∨ 400 < totalQuantity o.lines + l.quantity) := by omega
  simp [decideAddLine, lookUp_draft clean named hs, setOrder_cycleRuns, State.setOrder_setOrder, idle, hs, good, hl, hr,
    hmany]

/-- CHANGE_LINE replaces the line at its position (R9). -/
theorem decideChangeLine_taken (clean : CleanStorage s) (named : Names s n i o) (idle : s.cycleRuns = false)
    (hs : o.state = .draft) (good : s.store.size.bad = false) {item : LineItem} {l : Line}
    (hl : validLine s.store.size item = some l) {position : Nat} (h1 : 1 ≤ position) (h2 : position ≤ o.lines.length)
    (hq : totalQuantity (o.lines.set (position - 1) l) ≤ 400) :
    let lines := o.lines.set (position - 1) l
    decideChangeLine false n position item s = (.answer (lineStatus item) (item16 (totalQuantity lines)),
      s.setOrder i { o with lines, requested := totalQuantity lines, idle := 0
                            clamped := o.clamped && lines.any Line.clamped }) := by
  have inside : ¬(position = 0 ∨ o.lines.length < position) := by omega
  simp [decideChangeLine, lookUp_draft clean named hs, setOrder_cycleRuns, State.setOrder_setOrder, idle, hs, good, hl,
    inside, Nat.not_lt.mpr hq]

/-- DROP_LINE removes the line at its position (R10). -/
theorem decideDropLine_taken (clean : CleanStorage s) (named : Names s n i o) (hs : o.state = .draft)
    {position : Nat} (h1 : 1 ≤ position) (h2 : position ≤ o.lines.length) :
    let lines := o.lines.eraseIdx (position - 1)
    decideDropLine n position s = (.answer .ok (item8 lines.length ++ item16 (totalQuantity lines)),
      s.setOrder i { o with lines, requested := totalQuantity lines, idle := 0 }) := by
  have inside : ¬(position = 0 ∨ o.lines.length < position) := by omega
  simp only [decideDropLine, lookUp_draft clean named hs, hs, ne_eq, not_true_eq_false, if_false, inside, okay,
    State.setOrder_setOrder]

end

/-- Settles O25. -/
theorem lineEditsKeepTheSum : Obligations.LineEditsKeepTheSum := by
  refine ⟨fun h n i o s calm clean named hs hr => ⟨fun item b idle good q1 q2 hsize huse hsurface hb => ?_,
      fun position h1 h2 => ?_⟩,
    fun h n i o s calm clean named => ⟨fun idle item position => ⟨fun hs => ?_, fun hs => ⟨fun bad => ?_, fun good =>
      ⟨fun bad => ?_, fun bad => ?_, fun fits many => ?_, fun fits inside many => ?_⟩⟩⟩,
      fun position => ⟨fun hs => ?_, fun hs outside => ?_⟩⟩⟩
  · have hborder : ¬1 < item.border := fun h => by simp [borderOfCode_none.mpr h] at hb
    have fits : ¬LineBad s.store.size item := by
      unfold LineBad
      omega
    have hl := validLine_some fits hb
    rw [← lineStatus_eq]
    exact ⟨fun few hq => exec_edits (c := .addLine h n item) rfl calm
        (decideAddLine_taken clean named idle hs hr good hl few hq),
      fun position h1 h2 hq => exec_edits (c := .changeLine h n position item) rfl calm
        (decideChangeLine_taken clean named idle hs good hl h1 h2 hq)⟩
  · exact exec_edits (c := .dropLine h n position) rfl calm (decideDropLine_taken clean named hs h1 h2)
  · obtain ⟨hadd, hchange⟩ := lineEdit_wrongState clean named idle hs item position
    exact ⟨exec_edits (c := .addLine h n item) rfl calm hadd, exec_edits (c := .changeLine h n position item) rfl calm hchange⟩
  · obtain ⟨hadd, hchange⟩ := lineEdit_sheetBad clean named idle hs bad item position
    exact ⟨exec_edits (c := .addLine h n item) rfl calm hadd, exec_edits (c := .changeLine h n position item) rfl calm hchange⟩
  · exact exec_edits (c := .addLine h n item) rfl calm (decideAddLine_badValue clean named idle hs good bad)
  · exact exec_edits (c := .changeLine h n position item) rfl calm (decideChangeLine_badValue clean named idle hs good bad)
  · exact exec_edits (c := .addLine h n item) rfl calm (decideAddLine_tooMany clean named idle hs good fits many)
  · exact exec_edits (c := .changeLine h n position item) rfl calm
      (decideChangeLine_tooMany clean named idle hs good fits inside many)
  · exact exec_edits (c := .dropLine h n position) rfl calm ((decideDropLine_refused clean named position).1 hs)
  · exact exec_edits (c := .dropLine h n position) rfl calm ((decideDropLine_refused clean named position).2 hs outside)

/-! ### Units made together, and an admission (R33, R36) -/

/-- The ids that units take in a pool, the lowest FREE records in turn, and the pool that holds them (R33). -/
def placeUnits : List (Option PrintUnit) → List PrintUnit → List Nat × List (Option PrintUnit)
  | pool, [] => ([], pool)
  | pool, u :: rest =>
    match pool.findIdx? Option.isNone with
    | some id => (id :: (placeUnits (pool.set id (some u)) rest).1, (placeUnits (pool.set id (some u)) rest).2)
    | none => placeUnits pool rest

/-- The state with another unit pool. -/
def State.withPool (s : State) (pool : List (Option PrintUnit)) : State :=
  { s with queue := { s.queue with pool } }

/-- Making units changes the pool alone. -/
theorem makeUnits_eq (us : List PrintUnit) (s : State) :
    s.makeUnits us = ((placeUnits s.queue.pool us).1, s.withPool (placeUnits s.queue.pool us).2) := by
  induction us generalizing s with
  | nil => rfl
  | cons u rest ih =>
    cases hfree : s.queue.pool.findIdx? Option.isNone with
    | none => simp [State.makeUnits, State.makeUnit, placeUnits, hfree, ih]
    | some id =>
      simp only [State.makeUnits, State.makeUnit, placeUnits, hfree, ih]
      rfl

/-- Units join the tail of one class's section. -/
theorem joinTail_eq (s : State) (cls : OrderClass) (ids : List Nat) :
    s.joinTail cls ids = { s with queue := { s.queue with
      rush := if cls = .rush then s.queue.rush ++ ids else s.queue.rush
      standard := if cls = .standard then s.queue.standard ++ ids else s.queue.standard
      signal := true } } := by
  cases cls <;> rfl

/-- Units join the head of one class's section. -/
theorem joinHead_eq (s : State) (cls : OrderClass) (ids : List Nat) :
    s.joinHead cls ids = { s with queue := { s.queue with
      rush := if cls = .rush then ids ++ s.queue.rush else s.queue.rush
      standard := if cls = .standard then ids ++ s.queue.standard else s.queue.standard
      signal := true } } := by
  cases cls <;> rfl

/-- The units of an admission, with the figures read now (R36). -/
def admissionUnits (i : Nat) (o : Order) (s : State) : List PrintUnit :=
  admittedUnits i o.number 1 o.lines (o.lines.map (lineFigure s.store.size s.store.general))

/-- What an admission changes: the slot, its figures entry, the pool and one section (R36). -/
theorem admitOrder_eq (i : Nat) (o : Order) (s : State) :
    admitOrder i o s =
      let placed := placeUnits s.queue.pool (admissionUnits i o s)
      { s with
        orders := { s.orders with slots := s.orders.slots.set i (some
          { o with state := .queued, outstanding := o.requested, idle := 0 }) }
        queue := { s.queue with
          pool := placed.2, signal := true
          figures := s.queue.figures.set i (some
            { figures := o.lines.map (lineFigure s.store.size s.store.general), missing := [] })
          rush := if o.queueClass = .rush then s.queue.rush ++ placed.1 else s.queue.rush
          standard := if o.queueClass = .standard then s.queue.standard ++ placed.1 else s.queue.standard } } := by
  simp only [admitOrder, makeUnits_eq, joinTail_eq]
  rfl

/-- An admission writes the slot whole, so what it held before is no matter. -/
theorem admitOrder_setOrder (s : State) (i : Nat) (a o : Order) :
    admitOrder i o (s.setOrder i a) = admitOrder i o s := by
  simp [admitOrder_eq, admissionUnits, State.setOrder]

/-- A HELD order leaves the held list; the new head's trial is owed when it was the head (R13, R37). -/
theorem leaveHeldList_mem {s : State} {i : Nat} (held : i ∈ s.orders.heldList) :
    s.leaveHeldList i = { s with
      orders := { s.orders with
        heldList := s.orders.heldList.erase i
        trialDue := s.orders.trialDue || decide (s.orders.heldList.head? = some i) }
      queue := { s.queue with
        heldCause := if s.orders.heldList.erase i = [] then none else s.queue.heldCause } } := by
  have hhead : (s.orders.heldList.head? == some i) = decide (s.orders.heldList.head? = some i) := by
    rw [Bool.eq_iff_iff, beq_iff_eq, decide_eq_true_iff]
  simp only [State.leaveHeldList, List.contains_iff_mem, held, if_true, List.isEmpty_iff, hhead]

theorem leaveHeldList_other {s : State} {i : Nat} (held : i ∉ s.orders.heldList) : s.leaveHeldList i = s := by
  simp [State.leaveHeldList, held]

/-! ### SUBMIT and WITHDRAW (R12 to R14, O27) -/

/-- No line's size has gone out of use (R12). -/
theorem unusedSizeLine_none {size : Sheet} {lines : List Line} :
    unusedSizeLine size lines = none ↔ ∀ l ∈ lines, size.value (3 * l.size) ≠ 0 := by
  simp [unusedSizeLine, Sheet.printLength, List.findIdx?_eq_none_iff]

/-- The position of the first line whose size has gone out of use (R12). -/
theorem unusedSizeLine_first {size : Sheet} {before after : List Line} {l : Line}
    (hbefore : ∀ x ∈ before, size.value (3 * x.size) ≠ 0) (hl : size.value (3 * l.size) = 0) :
    unusedSizeLine size (before ++ l :: after) = some (before.length + 1) := by
  have hnone : before.findIdx? (fun l => size.printLength l.size == 0) = none := by
    simpa [Sheet.printLength, List.findIdx?_eq_none_iff] using hbefore
  have hl0 : size.printLength l.size = 0 := hl
  simp [unusedSizeLine, List.findIdx?_append, hnone, List.findIdx?_cons, hl0]

section
variable {s : State} {n i : Nat} {o : Order}

/-- SUBMIT's refusals (R12). -/
theorem decideSubmit_wrongState (clean : CleanStorage s) (named : Names s n i o) (idle : s.cycleRuns = false)
    (hs : o.state ≠ .draft ∨ o.lines = []) :
    decideSubmit false n s = (.answer .wrongState [], s.setOrder i (touched o)) := by
  simp [decideSubmit, lookUp_touched clean named, setOrder_cycleRuns, idle, hs, refuse]

theorem decideSubmit_sheetBad (clean : CleanStorage s) (named : Names s n i o) (idle : s.cycleRuns = false)
    (hs : o.state = .draft) (hl : o.lines ≠ []) (bad : s.store.size.bad = true) :
    decideSubmit false n s = (.answer .sheetBad [], s.setOrder i (touched o)) := by
  simp [decideSubmit, lookUp_touched clean named, setOrder_cycleRuns, idle, hs, hl, bad, refuse]

theorem decideSubmit_badValue (clean : CleanStorage s) (named : Names s n i o) (idle : s.cycleRuns = false)
    (hs : o.state = .draft) (good : s.store.size.bad = false) {position : Nat}
    (hu : unusedSizeLine s.store.size o.lines = some position) :
    decideSubmit false n s = (.answer .badValue (item8 position), s.setOrder i (touched o)) := by
  have hl : o.lines ≠ [] := by
    rintro h
    simp [unusedSizeLine, h] at hu
  simp [decideSubmit, lookUp_touched clean named, setOrder_cycleRuns, idle, hs, hl, good, hu]

/-- An order that joins the held list is written whole. -/
theorem joinHeld_setOrder (s : State) (i : Nat) (a b : Order) :
    joinHeld i b (s.setOrder i a) = { s with orders := { s.orders with
      slots := s.orders.slots.set i (some { b with state := .held, idle := 0 })
      heldList := s.orders.heldList ++ [i] } } := by
  simp [joinHeld, State.setOrder]

/-- SUBMIT with orders held already or no room: the order joins the held list's tail (R12). -/
theorem decideSubmit_held (clean : CleanStorage s) (named : Names s n i o) (idle : s.cycleRuns = false)
    (hs : o.state = .draft) (hl : o.lines ≠ []) (good : s.store.size.bad = false)
    (hu : unusedSizeLine s.store.size o.lines = none)
    (full : s.orders.heldList ≠ [] ∨ ¬s.queueCount + o.requested ≤ 440) :
    decideSubmit false n s = (.answer .ok (item8 1), { s with orders := { s.orders with
      slots := s.orders.slots.set i (some { o with state := .held, idle := 0 })
      heldList := s.orders.heldList ++ [i] } }) := by
  have hroom : ¬(s.orders.heldList = [] ∧ s.queueCount + o.requested ≤ 440) := by tauto
  have hcount : ∀ x, (s.setOrder i x).queueCount = s.queueCount := fun _ => rfl
  simp [decideSubmit, lookUp_draft clean named hs, setOrder_cycleRuns, idle, hs, hl, good, hu, State.hasRoom, hcount,
    hroom, okay, joinHeld_setOrder, OrderState.code]

/-- SUBMIT with no order held and room: the order is admitted at once (R12). -/
theorem decideSubmit_admitted (clean : CleanStorage s) (named : Names s n i o) (idle : s.cycleRuns = false)
    (hs : o.state = .draft) (hl : o.lines ≠ []) (good : s.store.size.bad = false)
    (hu : unusedSizeLine s.store.size o.lines = none) (empty : s.orders.heldList = [])
    (room : s.queueCount + o.requested ≤ 440) :
    decideSubmit false n s = (.answer .ok (item8 2), admitOrder i { o with idle := 0 } s) := by
  have hcount : ∀ x, (s.setOrder i x).queueCount = s.queueCount := fun _ => rfl
  simp [decideSubmit, lookUp_draft clean named hs, setOrder_cycleRuns, idle, hs, hl, good, hu, State.hasRoom, hcount,
    room, empty, okay, OrderState.code, admitOrder_setOrder]

/-- WITHDRAW of a HELD order (R14). -/
theorem decideWithdraw_held (clean : CleanStorage s) (named : Names s n i o) (hs : o.state = .held)
    (held : i ∈ s.orders.heldList) (ht : s.orders.trialDue = false) :
    let rest := s.orders.heldList.erase i
    decideWithdraw n s = (.answer .ok [], { s with
      orders := { s.orders with
        slots := s.orders.slots.set i (some { o with state := .draft, idle := 0 })
        heldList := rest, trialDue := decide (s.orders.heldList.head? = some i) }
      queue := { s.queue with heldCause := if rest = [] then none else s.queue.heldCause } }) := by
  have hplain := lookUp_plain (touch := true) clean named (.inr (by simp [hs]))
  simp [decideWithdraw, hplain, hs, okay, leaveHeldList_mem held, ht, State.setOrder]

theorem decideWithdraw_wrongState (clean : CleanStorage s) (named : Names s n i o) (hs : o.state ≠ .held) :
    decideWithdraw n s = (.answer .wrongState [], s.setOrder i (touched o)) := by
  simp [decideWithdraw, lookUp_touched clean named, hs, refuse]

end

/-- Settles O27. -/
theorem submitAndWithdraw : Obligations.SubmitAndWithdraw := by
  refine ⟨fun h n i o s calm clean named hs hl idle good hu => ⟨fun full => ?_, fun empty room => ?_⟩,
    fun h n i o s calm clean named hs held => ?_,
    fun h n i o s calm clean named => ⟨fun idle => ⟨fun hs => ?_, fun hs hl bad => ?_,
      fun hs good before l after heq hbefore hl => ?_⟩, fun hs => ?_⟩⟩
  · exact exec_answer (c := .submit h n) rfl calm.accepts
      (decideSubmit_held clean named idle hs hl good (unusedSizeLine_none.mpr hu) full) calm.noSignal calm.noTrial
  · exact congrArg Host.Outcome.next (serveActing_answer calm.accepts
      (decideSubmit_admitted clean named idle hs hl good (unusedSizeLine_none.mpr hu) empty room))
  · exact congrArg Host.Outcome.next (serveActing_answer calm.accepts
      (decideWithdraw_held clean named hs held calm.noTrial))
  · exact exec_edits (c := .submit h n) rfl calm (decideSubmit_wrongState clean named idle hs)
  · exact exec_edits (c := .submit h n) rfl calm (decideSubmit_sheetBad clean named idle hs hl bad)
  · exact exec_edits (c := .submit h n) rfl calm
      (decideSubmit_badValue clean named idle hs good (heq ▸ unusedSizeLine_first hbefore hl))
  · exact exec_edits (c := .withdraw h n) rfl calm (decideWithdraw_wrongState clean named hs)

end Sys2Proof.Machine
end

section
/-! Requests that read orders: READ_ORDER, QUOTE and FIND_ORDERS (R26, R27, R137, R138; O30, O31). -/

namespace Sys2Proof.Machine

section
variable {s : State} {n i : Nat} {o : Order}

/-! ### READ_ORDER and QUOTE (O30) -/

/-- What a price is formed from is not touched by the lookup (R132 to R135). -/
@[simp] theorem priceOf_touched (price : Sheet) (o : Order) : priceOf price (touched o) = priceOf price o := by
  unfold touched
  split <;> rfl

theorem decideReadOrder_named (clean : CleanStorage s) (named : Names s n i o) :
    decideReadOrder n s = (.answer .ok (orderItems (s.setOrder i (touched o)) i (touched o)),
      s.setOrder i (touched o)) := by
  simp [decideReadOrder, lookUp_touched clean named, okay]

/-- The items of READ_ORDER for an order that the lookup touched: the idle seconds read 0 in DRAFT (R11, R26). -/
theorem orderItems_touched (s : State) (i : Nat) (o : Order) :
    orderItems (s.setOrder i (touched o)) i (touched o) =
      item8 i ++ item16 o.number ++ item8 o.owner ++ itemOption itemTag o.tag ++ item8 o.cls.code
        ++ item8 o.queueClass.code ++ itemOption item16 o.promised ++ item8 o.state.code ++ itemList8 itemRecord o.lines
        ++ item16 o.requested ++ item16 o.delivered ++ item16 o.outstanding ++ item16 o.spoils ++ item16 o.trayCount
        ++ itemOption item8 o.bin ++ itemFlag o.late ++ itemFlag o.spill ++ itemFlag o.disturbed ++ itemFlag o.clamped
        ++ itemOption itemPrice o.price ++ itemFlag o.paid ++ itemFlag o.collected
        ++ (if o.state = .draft then item8 1 ++ item16 0 else item8 0) ++ item8 o.lines.length
        ++ itemOption item8 (if o.state = .held then heldPosition s i else none)
        ++ itemOption item8 (if o.state = .cancelling then o.voids else none) := by
  have hheld : ∀ a, heldPosition (s.setOrder i a) i = heldPosition s i := fun _ => rfl
  by_cases h : o.state = .draft
  · rw [touched_draft h, if_pos h]
    unfold orderItems
    rw [hheld, if_pos (show ({ o with idle := 0 } : Order).state = .draft from h)]
    rfl
  · rw [touched_other h, if_neg h]
    unfold orderItems
    rw [hheld, if_neg h]
    rfl

/-- QUOTE prices the order as it stands (R138). -/
theorem quoteItems_touched (price : Sheet) (o : Order) : quoteItems price (touched o) = quoteItems price o := by
  unfold touched
  split <;> rfl

theorem decideQuote_named (clean : CleanStorage s) (named : Names s n i o) :
    decideQuote n s =
      (if s.cycleRuns then .answer .storeBusy [] else if s.store.price.bad then .answer .sheetBad []
        else .answer .ok (quoteItems s.store.price o), s.setOrder i (touched o)) := by
  simp only [decideQuote, lookUp_touched clean named, setOrder_cycleRuns, State.setOrder_store, refuse, okay,
    quoteItems_touched]
  split
  · rfl
  · split <;> rfl

end

/-- Settles O30. -/
theorem readOrderAndQuoteChangeNothing : Obligations.ReadOrderAndQuoteChangeNothing := by
  intro h n i o s calm clean named
  have quote := decideQuote_named clean named
  refine ⟨?_, fun runs => ?_, fun idle bad => ?_, fun idle good => ?_⟩
  · have hd := decideReadOrder_named clean named
    rw [orderItems_touched] at hd
    exact exec_edits (c := .readOrder h n) rfl calm hd
  · rw [runs] at quote
    exact exec_edits (c := .quote h n) rfl calm quote
  · rw [idle, bad] at quote
    exact exec_edits (c := .quote h n) rfl calm quote
  · rw [idle, good] at quote
    exact exec_edits (c := .quote h n) rfl calm quote

/-! ### FIND_ORDERS (O31) -/

theorem insertNumber_perm (n : Nat) (l : List Nat) : (insertNumber n l).Perm (n :: l) := by
  induction l with
  | nil => rfl
  | cons m rest ih =>
    unfold insertNumber
    split
    · rfl
    · exact (ih.cons m).trans (List.Perm.swap n m rest)

theorem insertNumber_sorted (n : Nat) {l : List Nat} (h : l.Pairwise (· ≤ ·)) : (insertNumber n l).Pairwise (· ≤ ·) := by
  induction l with
  | nil => simp [insertNumber]
  | cons m rest ih =>
    obtain ⟨hm, hrest⟩ := List.pairwise_cons.mp h
    unfold insertNumber
    split
    · next hle =>
      refine List.pairwise_cons.mpr ⟨fun k hk => ?_, h⟩
      rcases List.mem_cons.mp hk with rfl | hk
      · exact hle
      · exact Nat.le_trans hle (hm k hk)
    · next hlt =>
      refine List.pairwise_cons.mpr ⟨fun k hk => ?_, ih hrest⟩
      rcases List.mem_cons.mp ((insertNumber_perm n rest).mem_iff.mp hk) with rfl | hk
      · omega
      · exact hm k hk

theorem insertNumbers_perm (l : List Nat) : (l.foldr insertNumber []).Perm l := by
  induction l with
  | nil => rfl
  | cons n rest ih => exact (insertNumber_perm n _).trans (ih.cons n)

theorem insertNumbers_sorted (l : List Nat) : (l.foldr insertNumber []).Pairwise (· ≤ ·) := by
  induction l with
  | nil => exact List.Pairwise.nil
  | cons n rest ih => exact insertNumber_sorted n ih

/-- The order of a slot that holds a live one is in the table. -/
theorem mem_liveOrders {s : State} {o : Order} : o ∈ s.liveOrders ↔ ∃ i, s.order? i = some o := by
  unfold State.liveOrders State.order?
  rw [List.mem_filterMap]
  simp only [id_eq, exists_eq_right, List.mem_iff_getElem?, List.getD_eq_getElem?_getD]
  exact exists_congr fun i => by
    cases s.orders.slots[i]? <;> simp

/-- Whether FIND_ORDERS takes an order's number (R27, log entry 34). -/
def FoundBy (source : Nat) (sel : Selector) (start : Nat) (s : State) (o : Order) : Prop :=
  start < o.number
    ∧ (match sel with
      | .tag t => o.state ≠ .damaged ∧ o.tag = some t
      | .state code => o.state.code = code
      | .owner station => o.state ≠ .damaged ∧ o.owner = station)
    ∧ (s.link.lab ≠ some source → s.orderAccess source = 1 → o.state ≠ .damaged ∧ o.owner = source)

theorem mem_foundNumbers {source : Nat} {sel : Selector} {start : Nat} {s : State} {k : Nat} :
    k ∈ foundNumbers source sel start s ↔ ∃ o ∈ s.liveOrders, o.number = k ∧ FoundBy source sel start s o := by
  unfold foundNumbers
  rw [(insertNumbers_perm _).mem_iff]
  simp only [List.mem_map, List.mem_filter]
  refine exists_congr fun o => ?_
  have htake : start < o.number → (selectorTakes sel o = true ↔ match sel with
      | .tag t => o.state ≠ .damaged ∧ o.tag = some t
      | .state code => o.state.code = code
      | .owner station => o.state ≠ .damaged ∧ o.owner = station) := by
    intro hlt
    have hne : o.number ≠ 0 := by omega
    cases sel <;> simp [selectorTakes, hne]
  unfold FoundBy State.ownOnly
  simp only [Bool.and_eq_true, decide_eq_true_eq, Bool.or_eq_true, Bool.not_eq_true', Bool.and_eq_false_iff,
    bne_iff_ne, bne_eq_false_iff_eq, beq_iff_eq, beq_eq_false_iff_ne]
  constructor
  · rintro ⟨⟨hlive, ⟨hsel, hlt⟩, hown⟩, hnum⟩
    exact ⟨hlive, hnum, hlt, (htake hlt).mp hsel, fun h1 h2 => hown.resolve_left fun h => h.elim h1 (· h2)⟩
  · rintro ⟨hlive, hnum, hlt, hsel, hown⟩
    exact ⟨⟨hlive, ⟨(htake hlt).mpr hsel, hlt⟩, by tauto⟩, hnum⟩

/-- The numbers found are distinct when no two live slots hold one number (R4). -/
theorem foundNumbers_nodup {source : Nat} {sel : Selector} {start : Nat} {s : State}
    (distinct : ∀ i j a b, s.order? i = some a → s.order? j = some b → 0 < a.number → a.number = b.number → i = j) :
    (foundNumbers source sel start s).Nodup := by
  unfold foundNumbers
  rw [(insertNumbers_perm _).nodup_iff]
  have hslots : s.orders.slots.Pairwise fun x y => ∀ a, x = some a → ∀ b, y = some b → 0 < a.number → a.number ≠ b.number := by
    rw [List.pairwise_iff_getElem]
    intro i j hi hj hlt a ha b hb hpos heq
    have horder : ∀ k o, (hk : k < s.orders.slots.length) → s.orders.slots[k] = some o → s.order? k = some o := by
      intro k o hk ho
      simp [State.order?, List.getD_eq_getElem?_getD, List.getElem?_eq_getElem hk, ho]
    exact absurd (distinct i j a b (horder i a hi ha) (horder j b hj hb) hpos heq) (by omega)
  have hlive : s.liveOrders.Pairwise fun a b => 0 < a.number → a.number ≠ b.number := by
    unfold State.liveOrders
    exact List.pairwise_filterMap.mpr hslots
  rw [List.nodup_iff_pairwise_ne, List.pairwise_map]
  refine (hlive.filter _).imp_of_mem fun ha _ hab => hab ?_
  have hlt := (List.mem_filter.mp ha).2
  simp only [Bool.and_eq_true, decide_eq_true_eq] at hlt
  omega

theorem decideFindOrders_bad {source start : Nat} {sel : Selector} {s : State}
    (bad : 9999 < start ∨ selectorValid sel = false) :
    decideFindOrders source sel start s = (.answer .badValue [], s) := by
  have h : (!selectorValid sel || decide (9999 < start)) = true := by
    rcases bad with h | h <;> simp [h]
  unfold decideFindOrders
  rw [if_pos h]
  rfl

theorem selectorValid_eq_false {sel : Selector} : selectorValid sel = false ↔ match sel with
    | .tag t => t.length = 0 ∨ 12 < t.length
    | .state code => 8 < code
    | .owner station => station = 0 ∨ 31 < station := by
  cases sel <;> simp [selectorValid, -List.length_eq_zero_iff] <;> omega

theorem decideFindOrders_good {source start : Nat} {sel : Selector} {s : State} (clean : CleanStorage s)
    (good : ¬(9999 < start ∨ selectorValid sel = false)) :
    let found := foundNumbers source sel start s
    decideFindOrders source sel start s = (.answer .ok (itemList8 item16 (found.take 16)
      ++ itemFlag (decide (16 < found.length)) ++ item8 (s.orders.slots.countP Option.isSome)
      ++ item16 s.orders.discarded), s) := by
  have h : ¬(!selectorValid sel || decide (9999 < start)) = true := by
    simp only [Bool.or_eq_true, Bool.not_eq_true', decide_eq_true_eq]
    tauto
  have hcount : s.liveOrders.length = s.orders.slots.countP Option.isSome := by
    simp [State.liveOrders, List.length_filterMap_eq_countP]
  unfold decideFindOrders
  rw [if_neg h, readSlots_clean clean, ← hcount]
  rfl

/-- Settles O31. -/
theorem findOrdersAscend : Obligations.FindOrdersAscend := by
  intro h sel start s calm
  refine ⟨fun bad => ?_, fun good clean => ?_⟩
  · refine exec_unchanged (c := .findOrders h sel start) rfl calm (decideFindOrders_bad ?_)
    rw [selectorValid_eq_false]
    exact bad
  · have good' : ¬(9999 < start ∨ selectorValid sel = false) := by
      rw [selectorValid_eq_false]
      exact good
    have hsorted : (foundNumbers h.source sel start s).Pairwise (· ≤ ·) := insertNumbers_sorted _
    refine ⟨foundNumbers h.source sel start s,
      exec_unchanged (c := .findOrders h sel start) rfl calm (decideFindOrders_good clean good'), hsorted,
      fun distinct => ?_, fun k => ?_⟩
    · exact hsorted.imp₂ (fun _ _ hle hne => Nat.lt_of_le_of_ne hle hne) (foundNumbers_nodup distinct)
    · rw [mem_foundNumbers]
      constructor
      · rintro ⟨o, hlive, rfl, hlt, hfound⟩
        exact ⟨hlt, o, hlive, rfl, hfound⟩
      · rintro ⟨hlt, o, hlive, rfl, hfound⟩
        exact ⟨o, hlive, rfl, hlt, hfound⟩

end Sys2Proof.Machine
end

section
/-! Requests on named orders that act on the bins and the keys: COLLECT, PAY and EMPTY_TRAYS (R124 to R126,
R139, R140; O52). -/

namespace Sys2Proof.Machine

section
variable {s : State} {n i : Nat} {o : Order}

/-! ### COLLECT, PAY and EMPTY_TRAYS (O52) -/

/-- The bin that COLLECT gives back: FREE with its door closed, DISCARD with it open (R125). -/
def Bin.givenBack (b : Bin) : Bin :=
  if b.isOpen = true then { b with state := .discard, number := none, slot := none, opened := false }
  else { b with state := .free, number := none, slot := none, count := 0, opened := false }

theorem releaseBin_eq (n : Nat) (s : State) : releaseBin n s = s.setBin n (s.bin n).givenBack := by
  unfold releaseBin Bin.givenBack
  split <;> rfl

/-- What a READY order's second key does to its slot (R24). -/
theorem settleKeys_clean (clean : CleanStorage s) (i : Nat) (o : Order) : settleKeys i o s = { s with
    orders := { s.orders with slots := s.orders.slots.set i (if (o.paid && o.collected) = true then none else some o) }
    queue := if (o.paid && o.collected) = true then { s.queue with figures := s.queue.figures.set i none }
      else s.queue } := by
  unfold settleKeys
  cases o.paid && o.collected
  · rfl
  · exact freeSlot_clean clean i

theorem decideCollect_wrongState (clean : CleanStorage s) (named : Names s n i o)
    (h : o.state ≠ .ready ∨ o.collected = true) : decideCollect n s = (.answer .wrongState [], s) := by
  have hno : ¬(o.state = .ready ∧ o.collected = false) := by
    rintro ⟨h1, h2⟩
    simp [h1, h2] at h
  simp [decideCollect, lookUp_plain (touch := false) clean named (.inl rfl), hno, refuse]

/-- COLLECT of a READY order that is not collected (R125). -/
theorem decideCollect_taken (clean : CleanStorage s) (named : Names s n i o) (hs : o.state = .ready)
    (hc : o.collected = false) (bins : List Bin)
    (hnone : o.bin = none → bins = s.sorter.bins)
    (hsome : ∀ b, o.bin = some b → bins = s.sorter.bins.set (b - 1) (s.bin b).givenBack) :
    decideCollect n s = (.answer .ok (itemFlag o.paid ++ itemOption item8 o.bin
      ++ item8 ((o.bin.map fun b => (s.bin b).count).getD 0) ++ item16 o.trayCount),
      { s with
        orders := { s.orders with
          slots := s.orders.slots.set i (if o.paid = true then none else some { o with collected := true, bin := none }) }
        queue := if o.paid = true then { s.queue with figures := s.queue.figures.set i none } else s.queue
        sorter := { s.sorter with bins } }) := by
  have hlook := lookUp_plain (touch := false) clean named (.inl rfl)
  cases hb : o.bin with
  | none =>
    simp only [decideCollect, hlook, hs, hc, and_self, if_true, hb, okay, settleKeys_clean clean, Bool.and_true,
      hnone hb]
  | some b =>
    have hclean : CleanStorage (s.setBin b (s.bin b).givenBack) := clean
    simp only [decideCollect, hlook, hs, hc, and_self, if_true, hb, okay, releaseBin_eq, settleKeys_clean hclean,
      Bool.and_true, hsome b hb]
    rfl

/-- PAY's refusals, in their order (R139, R140). -/
theorem decidePay_refused (clean : CleanStorage s) (named : Names s n i o) (amount : Nat) :
    (99999999 < amount → decidePay n amount s = (.answer .badValue [], s))
      ∧ (amount ≤ 99999999 → o.state = .complete → decidePay n amount s = (.answer .notPriced [], s))
      ∧ (amount ≤ 99999999 → o.state ≠ .complete → o.state ≠ .ready ∨ o.paid = true →
        decidePay n amount s = (.answer .wrongState [], s)) := by
  have hlook := lookUp_plain (touch := false) clean named (.inl rfl)
  refine ⟨fun h => ?_, fun h hs => ?_, fun h hs hr => ?_⟩
  · simp [decidePay, hlook, h, refuse]
  · simp [decidePay, hlook, Nat.not_lt.mpr h, hs, refuse]
  · have hno : ¬(o.state = .ready ∧ o.paid = false) := by
      rintro ⟨h1, h2⟩
      simp [h1, h2] at hr
    simp [decidePay, hlook, Nat.not_lt.mpr h, hs, hno, refuse]

/-- PAY of a READY order that is not paid takes the amount against the stored total (R140). -/
theorem decidePay_ready (clean : CleanStorage s) (named : Names s n i o) {amount : Nat} (ha : amount ≤ 99999999)
    (hs : o.state = .ready) (hp : o.paid = false) {p : PriceRecord} (hprice : o.price = some p) :
    decidePay n amount s =
      if amount < p.total then (.answer .shortPayment (item32 p.total ++ item32 (p.total - amount)), s)
      else (.answer .ok (item32 p.total ++ item32 amount ++ item32 (amount - p.total) ++ itemFlag o.collected),
        { s with
          orders := { s.orders with
            slots := s.orders.slots.set i (if o.collected = true then none else some { o with paid := true }) }
          queue := if o.collected = true then { s.queue with figures := s.queue.figures.set i none }
            else s.queue }) := by
  have hlook := lookUp_plain (touch := false) clean named (.inl rfl)
  simp only [decidePay, hlook, Nat.not_lt.mpr ha, if_false, hs, hp, and_self, if_true, takePayment, hprice,
    Option.map_some, Option.getD_some, okay, settleKeys_clean clean, Bool.true_and]
  rfl

end

/-- Settles O52. -/
theorem counterRequestsAnswer : Obligations.CounterRequestsAnswer := by
  refine ⟨fun h n i o s calm clean named => ⟨fun hs => ?_, fun hs hc => ?_, fun amount =>
    ⟨fun ha => ?_, fun ha => ⟨fun hs => ?_, fun hs hr => ?_, fun hs hp p hprice => ⟨fun hlt => ?_, fun hle => ?_⟩⟩⟩⟩,
    fun h selection s ok => ⟨fun hsel => ?_, fun hsel => ?_⟩⟩
  · exact exec_unchanged (c := .collect h n) rfl calm (decideCollect_wrongState clean named hs)
  · refine exec_answer (c := .collect h n) rfl calm.accepts
      (decideCollect_taken clean named hs hc _ (fun hb => ?_) fun b hb => ?_) ?_ calm.noTrial
    · simp only [hb]
    · simp only [hb]
      rfl
    · show (if o.paid = true then _ else _ : ExposureQueue).signal = false
      split <;> exact calm.noSignal
  · exact exec_unchanged (c := .pay h n amount) rfl calm ((decidePay_refused clean named amount).1 ha)
  · exact exec_unchanged (c := .pay h n amount) rfl calm ((decidePay_refused clean named amount).2.1 ha hs)
  · exact exec_unchanged (c := .pay h n amount) rfl calm ((decidePay_refused clean named amount).2.2 ha hs hr)
  · exact exec_unchanged (c := .pay h n amount) rfl calm
      ((decidePay_ready clean named ha hs hp hprice).trans (if_pos hlt))
  · refine exec_answer (c := .pay h n amount) rfl calm.accepts
      ((decidePay_ready clean named ha hs hp hprice).trans (if_neg (Nat.not_lt.mpr hle))) ?_ calm.noTrial
    show (if o.collected = true then _ else _ : ExposureQueue).signal = false
    split <;> exact calm.noSignal
  · have hd : decideEmptyTrays selection s = (.answer .badValue [], s) := if_pos hsel
    exact congrArg Host.Outcome.next (serve_answer ok hd)
  · have hd : decideEmptyTrays selection s = (.answer .ok _, _) := if_neg (Nat.not_lt.mpr hsel)
    exact congrArg Host.Outcome.next (serve_answer ok hd)

end Sys2Proof.Machine
end

section
/-! Unit records, promotion and retries (R17, R41, R44, R45; O38). -/

namespace Sys2Proof.Machine

/-! ### Unit records in the pool -/

/-- The record that a pool holds for an id. -/
def recordOf (pool : List (Option PrintUnit)) (id : Nat) : Option PrintUnit := pool.getD id none

theorem unit?_eq (s : State) (id : Nat) : s.unit? id = recordOf s.queue.pool id := rfl

/-- A record written within the pool is the one read. -/
theorem recordOf_set_self {pool : List (Option PrintUnit)} {id : Nat} (h : id < pool.length) (x : Option PrintUnit) :
    recordOf (pool.set id x) id = x := by
  simp [recordOf, List.getD_eq_getElem?_getD, h]

theorem recordOf_set_none (pool : List (Option PrintUnit)) (id k : Nat) :
    recordOf (pool.set id none) k = if k = id then none else recordOf pool k := by
  unfold recordOf
  rw [List.getD_eq_getElem?_getD, List.getElem?_set]
  by_cases h : id = k
  · subst h
    by_cases hl : id < pool.length <;> simp [hl]
  · simp [h, Ne.symm h, List.getD_eq_getElem?_getD]

theorem recordOf_set_ne (pool : List (Option PrintUnit)) {id k : Nat} (x : Option PrintUnit) (h : k ≠ id) :
    recordOf (pool.set id x) k = recordOf pool k := by
  simp [recordOf, List.getD_eq_getElem?_getD, List.getElem?_set_ne h.symm]

/-- A record in use lies in the pool. -/
theorem recordOf_lt {pool : List (Option PrintUnit)} {id : Nat} {u : PrintUnit} (h : recordOf pool id = some u) :
    id < pool.length := by
  by_contra hge
  simp [recordOf, List.getD_eq_getElem?_getD, List.getElem?_eq_none (Nat.le_of_not_lt hge)] at h

/-- The lowest FREE record of a pool. -/
theorem findIdx?_free {pool : List (Option PrintUnit)} {id : Nat} :
    pool.findIdx? Option.isNone = some id ↔
      id < pool.length ∧ recordOf pool id = none ∧ ∀ k < id, (recordOf pool k).isSome = true := by
  rw [List.findIdx?_eq_some_iff_getElem]
  constructor
  · rintro ⟨hlt, hnone, hbelow⟩
    refine ⟨hlt, by simpa [recordOf, List.getD_eq_getElem?_getD, List.getElem?_eq_getElem hlt] using hnone, fun k hk => ?_⟩
    have := hbelow k hk
    rw [recordOf, List.getD_eq_getElem?_getD, List.getElem?_eq_getElem (Nat.lt_trans hk hlt)]
    simpa [Option.isSome_iff_ne_none] using this
  · rintro ⟨hlt, hnone, hbelow⟩
    refine ⟨hlt, by simpa [recordOf, List.getD_eq_getElem?_getD, List.getElem?_eq_getElem hlt] using hnone, fun k hk => ?_⟩
    have := hbelow k hk
    rw [recordOf, List.getD_eq_getElem?_getD, List.getElem?_eq_getElem (Nat.lt_trans hk hlt)] at this
    simpa [Option.isSome_iff_ne_none] using this

/-- Writing a FREE record leaves one FREE record less. -/
theorem countP_isNone_set {pool : List (Option PrintUnit)} {id : Nat} (h : id < pool.length)
    (free : recordOf pool id = none) (u : PrintUnit) :
    (pool.set id (some u)).countP Option.isNone + 1 = pool.countP Option.isNone := by
  have hget : pool[id] = none := by
    simpa [recordOf, List.getD_eq_getElem?_getD, List.getElem?_eq_getElem h] using free
  have hpos : 0 < pool.countP Option.isNone := List.countP_pos_iff.mpr ⟨none, hget ▸ List.getElem_mem h, rfl⟩
  rw [List.countP_set h, hget]
  simp
  omega

/-- Units placed in a pool with as many FREE records take records that were FREE, one each in their order, and leave every
other record (R33). -/
theorem placeUnits_spec (us : List PrintUnit) (pool : List (Option PrintUnit))
    (room : us.length ≤ pool.countP Option.isNone) :
    let placed := placeUnits pool us
    placed.1.length = us.length ∧ placed.1.Nodup ∧ (∀ id ∈ placed.1, recordOf pool id = none)
      ∧ placed.1.map (recordOf placed.2) = us.map some
      ∧ (∀ k, k ∉ placed.1 → recordOf placed.2 k = recordOf pool k) ∧ placed.2.length = pool.length := by
  induction us generalizing pool with
  | nil => simp [placeUnits]
  | cons u rest ih =>
    cases hfree : pool.findIdx? Option.isNone with
    | none =>
      rw [List.findIdx?_eq_none_iff] at hfree
      have hzero : pool.countP Option.isNone = 0 := List.countP_eq_zero.mpr fun x hx => by simp [hfree x hx]
      simp [hzero] at room
    | some id =>
      obtain ⟨hlt, hnone, -⟩ := findIdx?_free.mp hfree
      have hcount := countP_isNone_set hlt hnone u
      obtain ⟨hlen, hnodup, hids, hmap, hother, hpool⟩ := ih (pool.set id (some u)) (by simp at room; omega)
      have hself := recordOf_set_self hlt (some u)
      have hnotin : id ∉ (placeUnits (pool.set id (some u)) rest).1 := fun hin => by
        simpa [hself] using hids id hin
      simp only [placeUnits, hfree]
      refine ⟨by simp [hlen], List.nodup_cons.mpr ⟨hnotin, hnodup⟩, fun k hk => ?_, ?_, fun k hk => ?_, by simpa using hpool⟩
      · rcases List.mem_cons.mp hk with rfl | hk
        · exact hnone
        · have hne : k ≠ id := fun h => hnotin (h ▸ hk)
          rw [← recordOf_set_ne pool (some u) hne]
          exact hids k hk
      · rw [List.map_cons, List.map_cons, hmap, hother id hnotin, hself]
      · obtain ⟨hne, hk⟩ := not_or.mp (fun h => hk (List.mem_cons.mpr h))
        rw [hother k hk, recordOf_set_ne pool _ hne]

/-! ### Promotion (R44, R45) -/

/-- The promotion of an order's units: those of the STANDARD section move to the tail of the RUSH section (R44). -/
theorem promoteUnits_eq (i number : Nat) (s : State) :
    let its := fun (id : Nat) => (s.unit? id).any fun u => u.isOf i number
    let moved := s.queue.standard.filter its
    promoteUnits i number s = (moved.length, { s with queue := { s.queue with
      standard := s.queue.standard.filter fun id => !its id, rush := s.queue.rush ++ moved
      signal := s.queue.signal || decide (moved ≠ []) } }) := by
  intro its moved
  show (if moved.isEmpty then (0, s) else _) = _
  by_cases h : moved = []
  · have hstay : s.queue.standard.filter (fun id => !its id) = s.queue.standard := by
      rw [List.filter_eq_self]
      intro id hid
      simpa using List.filter_eq_nil_iff.mp h id hid
    simp [h, hstay]
  · rw [if_neg (by simpa using h)]
    simp [h, its, moved]

section
variable {s : State} {n i : Nat} {o : Order}

theorem decidePromote_other (clean : CleanStorage s) (named : Names s n i o) :
    (¬(o.state = .held ∨ o.state = .queued ∨ o.state = .exposing ∨ o.state = .fault) →
        decidePromote n s = (.answer .wrongState [], s))
      ∧ (o.state = .held ∨ o.state = .queued ∨ o.state = .exposing ∨ o.state = .fault → o.queueClass = .rush →
        decidePromote n s = (.answer .ok (item16 0), s)) := by
  have hlook := lookUp_plain (touch := false) clean named (.inl rfl)
  exact ⟨fun h => by simp [decidePromote, hlook, h, refuse], fun h hc => by simp [decidePromote, hlook, h, hc, okay]⟩

theorem decidePromote_standard (clean : CleanStorage s) (named : Names s n i o) (hs : s.queue.signal = false)
    (h : o.state = .held ∨ o.state = .queued ∨ o.state = .exposing ∨ o.state = .fault)
    (hc : o.queueClass = .standard) :
    let its := fun (id : Nat) => (s.unit? id).any fun u => u.isOf i o.number
    let moved := s.queue.standard.filter its
    decidePromote n s = (.answer .ok (item16 moved.length), { s with
      orders := { s.orders with slots := s.orders.slots.set i (some { o with queueClass := .rush }) }
      queue := { s.queue with
        standard := s.queue.standard.filter (fun id => !its id)
        rush := s.queue.rush ++ moved, signal := decide (moved ≠ []) } }) := by
  have hlook := lookUp_plain (touch := false) clean named (.inl rfl)
  have hrush : o.queueClass ≠ .rush := by simp [hc]
  have hunit : ∀ x id, (s.setOrder i x).unit? id = s.unit? id := fun _ _ => rfl
  simp only [decidePromote, hlook, h, if_true, hrush, if_false, promoteUnits_eq, okay, hunit, State.setOrder_queue, hs,
    Bool.false_or]
  rfl

/-! ### RETRY_FAULT (R41) -/

/-- A place before another in line order and, within a line, copy order. -/
def PairBefore (p q : Nat × Nat) : Prop := p.1 < q.1 ∨ (p.1 = q.1 ∧ p.2 ≤ q.2)

theorem insertPair_perm (p : Nat × Nat) (l : List (Nat × Nat)) : (insertPair p l).Perm (p :: l) := by
  induction l with
  | nil => rfl
  | cons q rest ih =>
    unfold insertPair
    split
    · rfl
    · exact (ih.cons q).trans (List.Perm.swap p q rest)

theorem insertPair_sorted (p : Nat × Nat) {l : List (Nat × Nat)} (h : l.Pairwise PairBefore) :
    (insertPair p l).Pairwise PairBefore := by
  induction l with
  | nil => simp [insertPair]
  | cons q rest ih =>
    obtain ⟨hq, hrest⟩ := List.pairwise_cons.mp h
    unfold insertPair
    split
    · next hle =>
      refine List.pairwise_cons.mpr ⟨fun x hx => ?_, h⟩
      rcases List.mem_cons.mp hx with rfl | hx
      · exact hle
      · have hqx := hq x hx
        unfold PairBefore at hqx ⊢
        omega
    · next hlt =>
      refine List.pairwise_cons.mpr ⟨fun x hx => ?_, ih hrest⟩
      rcases List.mem_cons.mp ((insertPair_perm p rest).mem_iff.mp hx) with rfl | hx
      · unfold PairBefore
        omega
      · exact hq x hx

theorem missingInOrder_spec (missing : List (Nat × Nat)) :
    (missingInOrder missing).Perm missing ∧ (missingInOrder missing).Pairwise PairBefore := by
  unfold missingInOrder
  induction missing with
  | nil => exact ⟨.nil, .nil⟩
  | cons p rest ih => exact ⟨(insertPair_perm p _).trans (ih.1.cons p), insertPair_sorted p ih.2⟩

/-- The reprint of a missing pair: of its line's surface and its line figure record (R41). -/
def retryUnit (i : Nat) (o : Order) (e : FigureEntry) (pair : Nat × Nat) : Option PrintUnit :=
  match o.lines[pair.1 - 1]?, e.figures[pair.1 - 1]? with
  | some l, some f => some (orderUnit .reprint i o.number pair.1 pair.2 0 l.surface f)
  | _, _ => none

theorem retryUnits_eq (i : Nat) (o : Order) (e : FigureEntry) :
    retryUnits i o e = (missingInOrder e.missing).filterMap (retryUnit i o e) := rfl

/-- With every pair on a line of the order each pair gives its reprint. -/
theorem retryUnits_map {i : Nat} {o : Order} {e : FigureEntry} (hlen : e.figures.length = o.lines.length)
    (hpairs : ∀ pair ∈ e.missing, 1 ≤ pair.1 ∧ pair.1 ≤ o.lines.length) :
    (retryUnits i o e).map some = (missingInOrder e.missing).map (retryUnit i o e) := by
  rw [retryUnits_eq]
  have hsome : ∀ pair ∈ missingInOrder e.missing, (retryUnit i o e pair).isSome = true := by
    intro pair hin
    obtain ⟨h1, h2⟩ := hpairs pair ((missingInOrder_spec e.missing).1.mem_iff.mp hin)
    have hl : pair.1 - 1 < o.lines.length := by omega
    have hf : pair.1 - 1 < e.figures.length := by omega
    simp [retryUnit, List.getElem?_eq_getElem hl, List.getElem?_eq_getElem hf]
  generalize missingInOrder e.missing = pairs at hsome
  induction pairs with
  | nil => rfl
  | cons p rest ih =>
    obtain ⟨u, hu⟩ := Option.isSome_iff_exists.mp (hsome p (List.mem_cons_self ..))
    rw [List.filterMap_cons_some hu, List.map_cons, List.map_cons, hu, ih fun q hq => hsome q (List.mem_cons_of_mem _ hq)]

theorem decideRetryFault_wrongState (clean : CleanStorage s) (named : Names s n i o) (hs : o.state ≠ .fault) :
    decideRetryFault n s = (.answer .wrongState [], s.setOrder i (touched o)) := by
  simp [decideRetryFault, lookUp_touched clean named, hs, refuse]

theorem decideRetryFault_full (clean : CleanStorage s) (named : Names s n i o) (hs : o.state = .fault)
    {e : FigureEntry} (he : s.figures? i = some e) (full : 440 < s.queueCount + e.missing.length) :
    decideRetryFault n s = (.answer .full [], s) := by
  have hlook := lookUp_plain (touch := true) clean named (.inr (by simp [hs]))
  simp [decideRetryFault, hlook, hs, he, State.hasRoom, Nat.not_le.mpr full, refuse]

/-- RETRY_FAULT with room: the reprints are made and join the head of their section (R41). -/
theorem decideRetryFault_room (clean : CleanStorage s) (named : Names s n i o) (hs : o.state = .fault)
    {e : FigureEntry} (he : s.figures? i = some e) (room : s.queueCount + e.missing.length ≤ 440) :
    let placed := placeUnits s.queue.pool (retryUnits i o e)
    decideRetryFault n s = (.answer .ok (item16 e.missing.length), { s with
      queue := { s.queue with
        pool := placed.2, signal := true
        figures := s.queue.figures.set i (some { e with missing := [] })
        rush := if o.queueClass = .rush then placed.1 ++ s.queue.rush else s.queue.rush
        standard := if o.queueClass = .standard then placed.1 ++ s.queue.standard else s.queue.standard }
      orders := { s.orders with slots := s.orders.slots.set i (some
        { o with state := .exposing, outstanding := o.outstanding + e.missing.length }) } }) := by
  have hlook := lookUp_plain (touch := true) clean named (.inr (by simp [hs]))
  have hroom : s.hasRoom e.missing.length = true := decide_eq_true room
  simp only [decideRetryFault, hlook, hs, ne_eq, not_true_eq_false, if_false, he, Option.getD_some, hroom, if_true,
    makeUnits_eq, joinHead_eq, okay]
  rfl

end

/-- Settles O38. -/
theorem promoteAndRetry : Obligations.PromoteAndRetry := by
  intro h n i o s calm clean named
  refine ⟨fun active hc => ?_, fun active hc => ?_, fun active => ?_, fun hs => ?_, fun hs e he =>
    ⟨fun full => ?_, fun room free hlen hpairs => ?_⟩⟩
  · exact congrArg Host.Outcome.next (serveActing_answer calm.accepts
      (decidePromote_standard clean named calm.noSignal active hc))
  · exact exec_unchanged (c := .promote h n) rfl calm ((decidePromote_other clean named).2 active hc)
  · exact exec_unchanged (c := .promote h n) rfl calm ((decidePromote_other clean named).1 active)
  · exact exec_edits (c := .retryFault h n) rfl calm (decideRetryFault_wrongState clean named hs)
  · exact exec_unchanged (c := .retryFault h n) rfl calm (decideRetryFault_full clean named hs he full)
  · obtain ⟨hperm, hsorted⟩ := missingInOrder_spec e.missing
    have hunits := retryUnits_map (i := i) hlen hpairs
    have hcount : (retryUnits i o e).length = e.missing.length := by
      have := congrArg List.length hunits
      simpa [hperm.length_eq] using this
    obtain ⟨hids, hnodup, hfree, hmade, hother, -⟩ := placeUnits_spec (retryUnits i o e) s.queue.pool (by omega)
    refine ⟨_, missingInOrder e.missing, _, congrArg Host.Outcome.next (serveActing_answer calm.accepts
      (decideRetryFault_room clean named hs he room)), hperm, hsorted, by omega, hnodup, hfree,
      fun k position copy l f hpair hl hf => ?_, hother, rfl⟩
    have hk := congrArg (·[k]?) (hmade.trans hunits)
    simp only [List.getElem?_map, hpair, Option.map_some, retryUnit, hl, hf] at hk
    obtain ⟨id, hid, hrecord⟩ := Option.map_eq_some_iff.mp hk
    rw [hid]
    exact hrecord

end Sys2Proof.Machine
end

section
/-! Cancellation, state by state (R20 to R23, R34, R42; O29). -/

namespace Sys2Proof.Machine

/-! ### Units that leave the queue and units marked VOID -/

/-- The pool with some records FREE. -/
def freeRecords (pool : List (Option PrintUnit)) (ids : List Nat) : List (Option PrintUnit) :=
  ids.foldl (fun pool id => pool.set id none) pool

theorem recordOf_freeRecords (ids : List Nat) (pool : List (Option PrintUnit)) (k : Nat) :
    recordOf (freeRecords pool ids) k = if k ∈ ids then none else recordOf pool k := by
  induction ids generalizing pool with
  | nil => simp [freeRecords]
  | cons id rest ih =>
    refine (ih (pool.set id none)).trans ?_
    rw [recordOf_set_none]
    by_cases h1 : k ∈ rest <;> by_cases h2 : k = id <;> simp [h1, h2]

/-- Records that return to the pool signal the queue (R48). -/
theorem releaseUnits_eq (ids : List Nat) (s : State) :
    s.releaseUnits ids = { s with queue := { s.queue with
      pool := freeRecords s.queue.pool ids, signal := s.queue.signal || decide (ids ≠ []) } } := by
  induction ids generalizing s with
  | nil => simp [State.releaseUnits, freeRecords]
  | cons id rest ih =>
    refine (ih (s.releaseUnit id)).trans ?_
    simp [State.releaseUnit, freeRecords]

/-- Queued units leave their sections and the pool, which owes a held trial when there are any (R42). -/
theorem removeQueued_eq (ids : List Nat) (s : State) :
    s.removeQueued ids = { s with
      orders := { s.orders with trialDue := s.orders.trialDue || decide (ids ≠ []) }
      queue := { s.queue with
        strip := s.queue.strip.filter fun id => !ids.contains id
        rush := s.queue.rush.filter fun id => !ids.contains id
        standard := s.queue.standard.filter fun id => !ids.contains id
        pool := freeRecords s.queue.pool ids, signal := s.queue.signal || decide (ids ≠ []) } } := by
  cases ids with
  | nil => simp [State.removeQueued, freeRecords]
  | cons id rest =>
    simp only [State.removeQueued, List.isEmpty_cons, Bool.false_eq_true, if_false, releaseUnits_eq, State.oweTrial,
      State.leaveQueue, ne_eq, reduceCtorEq, not_false_eq_true, decide_true, Bool.or_true]

/-- Marking units VOID changes their records alone (R21). -/
theorem markVoid_spec (ids : List Nat) (s : State) : ∃ pool, markVoid ids s = s.withPool pool
    ∧ ∀ k, recordOf pool k = if k ∈ ids then (s.unit? k).map fun u => { u with void := true } else s.unit? k := by
  induction ids generalizing s with
  | nil => exact ⟨s.queue.pool, rfl, fun k => by simp [unit?_eq]⟩
  | cons id rest ih =>
    have hstep : ∃ pool, (s.modifyUnit id fun u => { u with void := true }) = s.withPool pool
        ∧ ∀ k, recordOf pool k = if k = id then (s.unit? k).map fun u => { u with void := true } else s.unit? k := by
      unfold State.modifyUnit
      cases hu : s.unit? id with
      | none =>
        refine ⟨s.queue.pool, rfl, fun k => ?_⟩
        split
        · next h => rw [h, hu]; exact hu
        · rfl
      | some u =>
        refine ⟨s.queue.pool.set id (some { u with void := true }), rfl, fun k => ?_⟩
        split
        · next h => rw [h, hu, recordOf_set_self (recordOf_lt hu)]; rfl
        · next h => exact recordOf_set_ne _ _ h
    obtain ⟨pool1, heq1, hrec1⟩ := hstep
    obtain ⟨pool2, heq2, hrec2⟩ := ih (s.withPool pool1)
    refine ⟨pool2, ?_, fun k => ?_⟩
    · show markVoid rest (s.modifyUnit id fun u => { u with void := true }) = _
      rw [heq1, heq2]
      rfl
    · rw [hrec2, show (s.withPool pool1).unit? k = recordOf pool1 k from rfl, hrec1]
      by_cases h1 : k ∈ rest <;> by_cases h2 : k = id <;> simp [h1, h2, Function.comp_def]

/-- The bins after an order's bin has gone to the Sorter (R21, R23). -/
def binsHandedBack (o : Order) (s : State) : List Bin := (giveBackBin o s).sorter.bins

theorem giveBackBin_eq (o : Order) (s : State) :
    giveBackBin o s = { s with sorter := { s.sorter with bins := binsHandedBack o s } } := by
  unfold binsHandedBack giveBackBin
  cases o.bin <;> rfl

/-- The bins depend on the sorter alone. -/
theorem binsHandedBack_congr {o : Order} {s t : State} (h : t.sorter = s.sorter) :
    binsHandedBack o t = binsHandedBack o s := by
  unfold binsHandedBack giveBackBin
  cases o.bin with
  | none => simp only [h]
  | some n => simp only [handBack, State.setBin, State.bin, h]

/-- The order's bin becomes DISCARD and every other one stays. -/
theorem bin_binsHandedBack {o : Order} {s : State} (h0 : o.bin ≠ some 0) {b : Nat} (h1 : 1 ≤ b)
    (h2 : b ≤ s.sorter.bins.length) :
    (binsHandedBack o s).getD (b - 1) Bin.reset = if o.bin = some b then
      { s.bin b with state := .discard, number := none, slot := none, opened := false } else s.bin b := by
  unfold binsHandedBack giveBackBin
  cases hb : o.bin with
  | none => rfl
  | some n =>
    have hn : n ≠ 0 := fun h => h0 (h ▸ hb)
    simp only [handBack, State.setBin_sorter_bins, List.getD_eq_getElem?_getD, List.getElem?_set, Option.some.injEq]
    by_cases h : n = b
    · subst h
      have hlt : n - 1 < s.sorter.bins.length := by omega
      simp [hlt]
    · have hne : n - 1 ≠ b - 1 := by omega
      simp [h, hne, State.bin, List.getD_eq_getElem?_getD]

section
variable {s : State} {n i : Nat} {o : Order}

/-- Freeing a slot takes no notice of what was written to it before. -/
theorem freeSlot_setOrder (s : State) (i : Nat) (a : Order) : (s.setOrder i a).freeSlot i = s.freeSlot i := by
  simp [State.freeSlot, State.setOrder]

/-! ### An order with no unit admitted -/

theorem decideCancel_draft (clean : CleanStorage s) (named : Names s n i o) (hs : o.state = .draft) :
    decideCancel n s = (.answer .ok (item8 0), { s with
      orders := { s.orders with slots := s.orders.slots.set i none }
      queue := { s.queue with figures := s.queue.figures.set i none } }) := by
  simp only [decideCancel, lookUp_draft clean named hs, hs, okay, freedItem, freeSlot_setOrder, freeSlot_clean clean]

theorem decideCancel_held (clean : CleanStorage s) (named : Names s n i o) (hs : o.state = .held)
    (held : i ∈ s.orders.heldList) (ht : s.orders.trialDue = false) :
    let rest := s.orders.heldList.erase i
    decideCancel n s = (.answer .ok (item8 0), { s with
      orders := { s.orders with
        slots := s.orders.slots.set i none, heldList := rest
        trialDue := decide (s.orders.heldList.head? = some i) }
      queue := { s.queue with
        figures := s.queue.figures.set i none
        heldCause := if rest = [] then none else s.queue.heldCause } }) := by
  have hlook := lookUp_plain (touch := true) clean named (.inr (by simp [hs]))
  have hclean : CleanStorage (s.leaveHeldList i) := by
    rw [leaveHeldList_mem held]
    exact clean
  simp only [decideCancel, hlook, hs, okay, freedItem]
  rw [freeSlot_clean hclean]
  simp only [leaveHeldList_mem held, ht, Bool.false_or]

/-- A COMPLETE order, or a READY one that is not paid, gives its bin back and is freed (R23). -/
theorem decideCancel_finished (clean : CleanStorage s) (named : Names s n i o)
    (hs : o.state = .complete ∨ (o.state = .ready ∧ o.paid = false)) :
    decideCancel n s = (.answer .ok (item8 0), { s with
      orders := { s.orders with slots := s.orders.slots.set i none }
      queue := { s.queue with figures := s.queue.figures.set i none }
      sorter := { s.sorter with bins := binsHandedBack o s } }) := by
  have hlook := lookUp_plain (touch := true) clean named (.inr (by rcases hs with h | ⟨h, -⟩ <;> simp [h]))
  have hclean : CleanStorage (giveBackBin o s) := by
    rw [giveBackBin_eq]
    exact clean
  rcases hs with hs | ⟨hs, hp⟩
  · simp only [decideCancel, hlook, hs, okay, freedItem]
    rw [freeSlot_clean hclean, giveBackBin_eq]
  · simp only [decideCancel, hlook, hs, hp, Bool.false_eq_true, if_false, okay, freedItem]
    rw [freeSlot_clean hclean, giveBackBin_eq]

theorem decideCancel_unchanged (clean : CleanStorage s) (named : Names s n i o) :
    (o.state = .ready → o.paid = true → decideCancel n s = (.answer .wrongState [], s))
      ∧ (o.state = .cancelling → decideCancel n s = (.answer .ok (item8 1), s)) := by
  refine ⟨fun hs hp => ?_, fun hs => ?_⟩ <;>
    have hlook := lookUp_plain (touch := true) clean named (.inr (by simp [hs]))
  · simp [decideCancel, hlook, hs, hp, refuse]
  · simp [decideCancel, hlook, hs, okay, cancellingItem]

/-! ### An order whose units are admitted (R20, R21) -/

theorem decideCancel_admitted (clean : CleanStorage s) (named : Names s n i o)
    (hs : o.state = .queued ∨ o.state = .exposing ∨ o.state = .fault) :
    decideCancel n s = cancelUnits i o s := by
  have hlook := lookUp_plain (touch := true) clean named (.inr (by rcases hs with h | h | h <;> simp [h]))
  rcases hs with hs | hs | hs <;> simp only [decideCancel, hlook, hs]

/-- The order's units in flight are none of the queue's, so the removal of its queued units leaves their records. -/
theorem inFlight_filter_removeQueued (apart : ∀ id ∈ s.inFlight, id ∉ s.queue.ids) (its test : Nat → Bool)
    (p : PrintUnit → Bool) (htest : ∀ id, test id = (s.unit? id).any p) :
    (s.inFlight.filter fun id => ((s.removeQueued (s.queue.ids.filter its)).unit? id).any p) = s.inFlight.filter test := by
  refine List.filter_congr fun id hid => ?_
  have hnot : id ∉ s.queue.ids.filter its := fun h => apart id hid (List.mem_of_mem_filter h)
  rw [htest, removeQueued_eq]
  show (recordOf (freeRecords s.queue.pool _) id).any p = _
  rw [recordOf_freeRecords, if_neg hnot]
  rfl

/-- A CANCEL of an order whose units are admitted: what it answers and all it changes (R20, R21, R34, R42). -/
theorem cancelUnits_spec (clean : CleanStorage s) (apart : ∀ id ∈ s.inFlight, id ∉ s.queue.ids) (i : Nat) (o : Order) :
    let its := fun (id : Nat) => (s.unit? id).any fun u => u.isOf i o.number
    let queued := s.queue.ids.filter its
    let flight := s.inFlight.filter its
    let counted := flight.filter fun id => (s.unit? id).any fun u => !u.spoiled && !u.void
    ∃ pool : List (Option PrintUnit),
      cancelUnits i o s = (.answer .ok (item8 (if flight = [] then 0 else 1)), { s with
        orders := { s.orders with
          slots := s.orders.slots.set i (if flight = [] then none else some { o with
            state := .cancelling, bin := none, voids := some flight.length
            outstanding := o.outstanding - queued.length - counted.length })
          trialDue := s.orders.trialDue || decide (queued ≠ []) }
        queue := { s.queue with
          strip := s.queue.strip.filter fun id => !queued.contains id
          rush := s.queue.rush.filter fun id => !queued.contains id
          standard := s.queue.standard.filter fun id => !queued.contains id
          figures := if flight = [] then s.queue.figures.set i none else s.queue.figures
          pool, signal := s.queue.signal || decide (queued ≠ []) }
        sorter := { s.sorter with bins := binsHandedBack o s } })
      ∧ ∀ id, recordOf pool id = if id ∈ queued then none
          else if id ∈ flight then (s.unit? id).map fun u => { u with void := true } else s.unit? id := by
  intro its queued flight counted
  have hin : (s.removeQueued queued).inFlight = s.inFlight := by rw [removeQueued_eq]; rfl
  have hflight : inFlightOf i o.number (s.removeQueued queued) = flight := by
    unfold inFlightOf
    rw [hin]
    exact inFlight_filter_removeQueued apart its its _ fun _ => rfl
  have hrecord : ∀ id, (s.removeQueued queued).unit? id = if id ∈ queued then none else s.unit? id := by
    intro id
    rw [removeQueued_eq]
    exact recordOf_freeRecords queued s.queue.pool id
  have hcounted : countedInFlight flight (s.removeQueued queued) = counted.length := by
    unfold countedInFlight
    refine congrArg List.length (List.filter_congr fun id hid => ?_)
    have hnot : id ∉ queued := fun h => apart id (List.mem_of_mem_filter hid) (List.mem_of_mem_filter h)
    rw [hrecord, if_neg hnot]
  obtain ⟨pool, hvoid, hpool⟩ := markVoid_spec flight (s.removeQueued queued)
  refine ⟨pool, ?_, fun id => ?_⟩
  · have hqueued : (s.queuedWhere fun u => u.isOf i o.number) = queued := rfl
    simp only [cancelUnits, hqueued, hflight, hvoid, hcounted]
    have hbins : binsHandedBack o ((s.removeQueued queued).withPool pool) = binsHandedBack o s :=
      binsHandedBack_congr (by rw [removeQueued_eq]; rfl)
    have hclean : CleanStorage (giveBackBin o ((s.removeQueued queued).withPool pool)) := by
      rw [giveBackBin_eq, removeQueued_eq]
      exact clean
    by_cases h : flight = []
    · rw [if_pos (List.isEmpty_iff.mpr h), freeSlot_clean hclean, giveBackBin_eq, hbins, removeQueued_eq]
      simp only [h, if_true, okay]
      rfl
    · rw [if_neg (fun he => h (List.isEmpty_iff.mp he)), giveBackBin_eq, hbins, removeQueued_eq]
      simp only [h, if_false, okay]
      rfl
  · rw [hpool, hrecord]
    by_cases hq : id ∈ queued <;> by_cases hf : id ∈ flight <;> simp [hq, hf]

end

/-- Settles O29. -/
theorem cancelActsByState : Obligations.CancelActsByState := by
  refine ⟨fun h n i o s calm clean named => ⟨fun hs => ?_, fun hs held => ?_, fun hs => ?_, fun hs hp => ?_, fun hs => ?_⟩,
    fun h n i o s calm clean named hs apart => ?_⟩
  · exact exec_answer (c := .cancel h n) rfl calm.accepts (decideCancel_draft clean named hs) calm.noSignal calm.noTrial
  · exact congrArg Host.Outcome.next (serveActing_answer calm.accepts
      (decideCancel_held clean named hs held calm.noTrial))
  · have hbins : binsHandedBack o s = match o.bin with
        | none => s.sorter.bins
        | some b => s.sorter.bins.set (b - 1)
            { s.bin b with state := .discard, number := none, slot := none, opened := false } := by
      unfold binsHandedBack giveBackBin
      cases o.bin <;> rfl
    have hd := decideCancel_finished clean named hs
    rw [hbins] at hd
    exact exec_answer (c := .cancel h n) rfl calm.accepts hd calm.noSignal calm.noTrial
  · exact exec_unchanged (c := .cancel h n) rfl calm ((decideCancel_unchanged clean named).1 hs hp)
  · exact exec_unchanged (c := .cancel h n) rfl calm ((decideCancel_unchanged clean named).2 hs)
  · obtain ⟨pool, hcancel, hpool⟩ := cancelUnits_spec clean apart i o
    rw [calm.noSignal, calm.noTrial] at hcancel
    refine ⟨_, congrArg Host.Outcome.next (serveActing_answer calm.accepts
      ((decideCancel_admitted clean named hs).trans hcancel)), rfl, hpool, ?_, fun h0 b h1 h2 => ?_, rfl⟩
    · rfl
    · exact bin_binsHandedBack h0 h1 h2

end Sys2Proof.Machine
end

section
/-! Passes over the slots: the second event, the draft timeout and the late check (R11, R28 to R30; O32 to O34). -/

namespace Sys2Proof.Machine

/-! ### A pass over the slot table -/

/-- The slots after a pass in ascending index has changed the first `n` of them. -/
def passed (f : Option Order → Option Order) (n : Nat) (slots : List (Option Order)) : List (Option Order) :=
  (slots.take n).map f ++ slots.drop n

@[simp] theorem passed_zero (f : Option Order → Option Order) (slots : List (Option Order)) : passed f 0 slots = slots :=
  rfl

theorem passed_all {f : Option Order → Option Order} {n : Nat} {slots : List (Option Order)} (h : slots.length = n) :
    passed f n slots = slots.map f := by
  simp [passed, ← h]

theorem passed_getElem? (f : Option Order → Option Order) {n : Nat} {slots : List (Option Order)}
    (h : n < slots.length) : (passed f n slots)[n]? = slots[n]? := by
  have hlen : ((slots.take n).map f).length = n := by simp; omega
  rw [passed, List.getElem?_append_right (by omega), hlen, Nat.sub_self, List.getElem?_drop, Nat.add_zero]

/-- The pass goes on to the next slot. -/
theorem passed_set (f : Option Order → Option Order) {n : Nat} {slots : List (Option Order)} (h : n < slots.length) :
    (passed f n slots).set n (f slots[n]) = passed f (n + 1) slots := by
  have hlen : ((slots.take n).map f).length = n := by simp; omega
  rw [passed, List.set_append_right _ _ (by omega), hlen, Nat.sub_self, List.drop_eq_getElem_cons h, List.set_cons_zero,
    passed, List.take_succ_eq_append_getElem h, List.map_append, List.append_assoc]
  rfl

/-- A slot that the pass leaves as it is. -/
theorem passed_same {f : Option Order → Option Order} {n : Nat} {slots : List (Option Order)} (h : n < slots.length)
    (same : f slots[n] = slots[n]) : passed f (n + 1) slots = passed f n slots := by
  rw [← passed_set f h, same]
  apply List.ext_getElem?
  intro k
  rw [List.getElem?_set]
  split
  · next hk =>
    subst hk
    rw [passed_getElem? f h, List.getElem?_eq_getElem h]
    simp [passed]
    omega
  · rfl

@[simp] theorem passed_length (f : Option Order → Option Order) (n : Nat) (slots : List (Option Order)) :
    (passed f n slots).length = slots.length := by
  simp [passed]
  omega

/-- The state with another slot table. -/
def State.withSlots (s : State) (slots : List (Option Order)) : State := { s with orders := { s.orders with slots } }

theorem withSlots_clean {s : State} (clean : CleanStorage s) (slots : List (Option Order)) :
    CleanStorage (s.withSlots slots) := clean

/-- A slot of the table, by its place. -/
theorem order?_eq_getElem {s : State} {i : Nat} (h : i < s.orders.slots.length) : s.order? i = s.orders.slots[i] := by
  simp [State.order?, List.getD_eq_getElem?_getD, List.getElem?_eq_getElem h]

/-- The next slot of a pass is still as it was. -/
theorem order?_passed {s t : State} {f : Option Order → Option Order} {n : Nat} (h : n < s.orders.slots.length)
    (ht : t.orders.slots = passed f n s.orders.slots) : t.order? n = s.order? n := by
  simp only [State.order?, ht, List.getD_eq_getElem?_getD, passed_getElem? f h]

/-- A command that arrives while the part runs, whose event leaves nothing owed. -/
theorem whileOnActing_calm {s t : State} {event : State → State} (on : s.power = .on) (he : event s = t)
    (hs : t.queue.signal = false) (ht : t.orders.trialDue = false) : whileOnActing event s = t := by
  rw [whileOnActing, if_pos on, he, settle_calm hs ht]

theorem whileOnActing_on {s : State} {event : State → State} (on : s.power = .on) :
    whileOnActing event s = settle (event s) := if_pos on

/-! ### The second event (R11, R28; O32) -/

/-- An order after a second: a DRAFT's idle seconds rise (R11). -/
def Order.idleUp (o : Order) : Order :=
  if o.state = .draft then { o with idle := min (o.idle + 1) 3600 } else o

theorem idleSlot_clean {s : State} (clean : CleanStorage s) {i : Nat} (h : i < s.orders.slots.length) :
    idleSlot i s = s.withSlots (s.orders.slots.set i ((s.order? i).map Order.idleUp)) := by
  unfold idleSlot
  cases ho : s.order? i with
  | none =>
    have hself : s.orders.slots.set i none = s.orders.slots := by
      rw [← ho, order?_eq_getElem h, List.set_getElem_self]
    simp [hself, State.withSlots]
  | some o =>
    by_cases hd : o.state = .draft
    · simp only [hd, if_true, readSlot_clean clean, State.modifyOrder, ho, State.setOrder, Option.map_some, Order.idleUp,
        satUp, State.withSlots]
    · have hself := set_order?_self ho
      simp [hd, Order.idleUp, hself, State.withSlots]

theorem idleSlots_eq {s : State} (clean : CleanStorage s) : ∀ n ≤ s.orders.slots.length,
    (List.range n).foldl (fun s i => idleSlot i s) s =
      s.withSlots (passed (Option.map Order.idleUp) n s.orders.slots) := by
  intro n
  induction n with
  | zero => exact fun _ => rfl
  | succ n ih =>
    intro hn
    have hclean := withSlots_clean clean (passed (Option.map Order.idleUp) n s.orders.slots)
    have hlen : n < (passed (Option.map Order.idleUp) n s.orders.slots).length := by simpa using hn
    rw [List.range_succ, List.foldl_append, ih (by omega), List.foldl_cons, List.foldl_nil,
      idleSlot_clean hclean hlen, order?_passed (s := s) hn rfl, order?_eq_getElem hn]
    exact congrArg s.withSlots (passed_set _ hn)

/-- The clock's next second of the week (R28). -/
theorem tick_spec {c : ShopClock} (h : c.Wf) :
    60 * c.tick.minute + c.tick.second = (60 * c.minute + c.second + 1) % 604800
      ∧ c.tick.second ≤ 59 ∧ c.tick.isSet = c.isSet
      ∧ c.tick.minuteDue = (c.minuteDue || decide (c.tick.second = 0)) := by
  obtain ⟨hm, hs⟩ := h
  unfold ShopClock.tick
  by_cases h59 : 59 ≤ c.second
  · by_cases hweek : 10079 ≤ c.minute
    · simp [h59, hweek]; omega
    · simp [h59, hweek]; omega
  · simp [h59]; omega

/-- Settles O32. -/
theorem secondEventAdvances : Obligations.SecondEventAdvances := by
  refine ⟨fun s running clean hlen => ?_, fun c h => tick_spec h⟩
  refine congrArg Host.Outcome.next (whileOnActing_calm running.power ?_ running.noSignal running.noTrial)
  have hpass := idleSlots_eq (s := { s with clock := s.clock.tick }) clean 64 (by rw [← hlen])
  rw [passed_all hlen] at hpass
  show idleSeconds _ = _
  unfold idleSeconds slotIndexes
  rw [hpass]
  rfl

/-! ### The draft timeout (R11; O33) -/

/-- A DRAFT whose idle seconds have reached the draft timeout (R11). -/
def Order.timedOut (timeout : Nat) (o : Order) : Bool := o.state == .draft && decide (timeout ≤ o.idle)

/-- The state after a pass of the draft timeout over the first `n` slots, with the figures table it leaves. -/
def State.timedOutPass (s : State) (timeout n : Nat) (figures : List (Option FigureEntry)) : State :=
  { s with
    orders := { s.orders with
      slots := passed (Option.filter fun o => !o.timedOut timeout) n s.orders.slots
      discarded := Nat.repeat (fun d => min (d + 1) 65535)
        ((s.orders.slots.take n).countP fun slot => slot.any (Order.timedOut timeout)) s.orders.discarded }
    queue := { s.queue with figures } }

theorem timeoutSlot_clean {s : State} (clean : CleanStorage s) (i : Nat) :
    timeoutSlot i s =
      if (s.order? i).any (Order.timedOut (s.store.general.draftTimeout * 60)) = true then
        { s with
          orders := { s.orders with
            slots := s.orders.slots.set i none, discarded := min (s.orders.discarded + 1) 65535 }
          queue := { s.queue with figures := s.queue.figures.set i none } }
      else s := by
  unfold timeoutSlot
  simp only [readSlot_clean clean, freeSlot_clean clean i]
  cases s.order? i with
  | none => rfl
  | some o => by_cases hd : o.state = .draft <;> simp [Order.timedOut, hd, satUp]

theorem timeoutSlots_eq {s : State} (clean : CleanStorage s) : ∀ n ≤ s.orders.slots.length, ∃ figures,
    (List.range n).foldl (fun s i => timeoutSlot i s) s =
      s.timedOutPass (s.store.general.draftTimeout * 60) n figures := by
  intro n
  induction n with
  | zero => exact fun _ => ⟨s.queue.figures, rfl⟩
  | succ n ih =>
    intro hn
    obtain ⟨figures, hpass⟩ := ih (by omega)
    generalize ht : s.store.general.draftTimeout * 60 = timeout at hpass ⊢
    have hclean : CleanStorage (s.timedOutPass timeout n figures) := clean
    have htimeout : (s.timedOutPass timeout n figures).store.general.draftTimeout * 60 = timeout := ht
    rw [List.range_succ, List.foldl_append, hpass, List.foldl_cons, List.foldl_nil, timeoutSlot_clean hclean,
      order?_passed (s := s) hn rfl, order?_eq_getElem hn, htimeout]
    have hcount : (s.orders.slots.take (n + 1)).countP (fun slot => slot.any (Order.timedOut timeout)) =
        (s.orders.slots.take n).countP (fun slot => slot.any (Order.timedOut timeout)) +
          if s.orders.slots[n].any (Order.timedOut timeout) = true then 1 else 0 := by
      rw [List.take_succ_eq_append_getElem hn, List.countP_append, List.countP_singleton]
    by_cases hout : s.orders.slots[n].any (Order.timedOut timeout) = true
    · refine ⟨figures.set n none, ?_⟩
      have hnone : s.orders.slots[n].filter (fun o => !o.timedOut timeout) = none := by
        obtain ⟨o, ho, hto⟩ := (Option.any_eq_true _ _).mp hout
        simp [ho, hto]
      rw [if_pos hout] at hcount ⊢
      rw [State.timedOutPass, State.timedOutPass, hcount, ← passed_set _ hn, hnone]
      rfl
    · refine ⟨figures, ?_⟩
      have hsame : s.orders.slots[n].filter (fun o => !o.timedOut timeout) = s.orders.slots[n] := by
        cases ho : s.orders.slots[n] with
        | none => rfl
        | some o => simpa [ho] using hout
      rw [if_neg hout] at hcount ⊢
      rw [State.timedOutPass, State.timedOutPass, hcount, passed_same hn hsame, Nat.add_zero]

/-- Settles O33. -/
theorem draftTimeoutFreesIdleDrafts : Obligations.DraftTimeoutFreesIdleDrafts := by
  intro s running hlen timeout out
  have htimeout : s.store.general.draftTimeout * 60 = timeout := Nat.mul_comm _ _
  refine ⟨fun hnot => ?_, fun due idle clean => ?_⟩
  · have hsame : draftTimeouts s = s := if_neg (by
      rcases hnot with h | h <;> simp [h])
    exact congrArg Host.Outcome.next (whileOnActing_calm running.power hsame running.noSignal running.noTrial)
  · obtain ⟨figures, hpass⟩ := timeoutSlots_eq clean 64 (by rw [hlen])
    rw [htimeout] at hpass
    have hdue : draftTimeouts s = { s.timedOutPass timeout 64 figures with
        orders := { (s.timedOutPass timeout 64 figures).orders with draftCheckDue := false } } := by
      unfold draftTimeouts slotIndexes
      rw [if_pos (by simp [due, idle]), hpass]
    refine ⟨_, congrArg Host.Outcome.next (whileOnActing_calm running.power hdue running.noSignal running.noTrial), ?_,
      rfl⟩
    simp only [State.timedOutPass, passed_all hlen, List.take_of_length_le (Nat.le_of_eq hlen)]
    rfl

/-! ### The late check (R28 to R30, R44; O34) -/

/-- An order after a late check at a minute (R30). -/
def Order.lateAt (minute : Nat) (o : Order) : Order :=
  if o.dueLate minute = true then { o with late := true, queueClass := .rush } else o

/-- Whether the order in a slot is made LATE. -/
def State.lateDue (s : State) (i : Nat) : Bool := (s.order? i).any fun o => o.dueLate s.clock.minute

/-- The STANDARD units that the promotion of a slot's order moves (R44). -/
def State.promoted (s : State) (i : Nat) : List Nat :=
  s.queue.standard.filter fun id =>
    (s.order? i).any fun o => o.queueClass == .standard && (s.unit? id).any fun u => u.isOf i o.number

/-- The slots below `n` whose orders are made LATE. -/
def State.lateBelow (s : State) (n : Nat) : List Nat := (List.range n).filter s.lateDue

/-- The units that the late orders below `n` move. -/
def State.movedBelow (s : State) (n : Nat) : List Nat := (s.lateBelow n).flatMap s.promoted

/-- The state that a late check leaves: its slots, the slots made LATE and the units moved to the RUSH section. -/
def State.afterLate (s : State) (slots : List (Option Order)) (late moved : List Nat) : State :=
  { s with
    orders := { s.orders with slots }
    queue := { s.queue with
      standard := s.queue.standard.filter fun id => !moved.contains id
      rush := s.queue.rush ++ moved, signal := s.queue.signal || decide (moved ≠ []) }
    notices := (late.foldl
      (fun t i => t.raise .orderLate (((s.order? i).map Order.number).getD 0)) s).notices }

/-- The state after the late check of the first `n` slots. -/
def State.latePass (s : State) (n : Nat) : State :=
  s.afterLate (passed (Option.map (Order.lateAt s.clock.minute)) n s.orders.slots) (s.lateBelow n) (s.movedBelow n)

theorem lateBelow_succ (s : State) (n : Nat) :
    s.lateBelow (n + 1) = if s.lateDue n = true then s.lateBelow n ++ [n] else s.lateBelow n := by
  unfold State.lateBelow
  rw [List.range_succ, List.filter_append, List.filter_singleton]
  cases s.lateDue n <;> simp

/-- A unit belongs to one slot, so no order moves a unit that an order before it moved. -/
theorem promoted_not_moved {s : State} {n id : Nat} (h : id ∈ s.promoted n) : id ∉ s.movedBelow n := by
  have slot : ∀ i, id ∈ s.promoted i → ∃ u, s.unit? id = some u ∧ u.slot = some i := by
    intro i hi
    obtain ⟨-, hany⟩ := List.mem_filter.mp hi
    obtain ⟨o, -, hand⟩ := (Option.any_eq_true _ _).mp hany
    obtain ⟨-, hunit⟩ := (Bool.and_eq_true_iff).mp hand
    obtain ⟨u, hu, hof⟩ := (Option.any_eq_true _ _).mp hunit
    exact ⟨u, hu, eq_of_beq (Bool.and_eq_true_iff.mp hof).1⟩
  intro hmoved
  obtain ⟨i, hi, hid⟩ := List.mem_flatMap.mp hmoved
  obtain ⟨u, hu, hn⟩ := slot n h
  obtain ⟨v, hv, hv'⟩ := slot i hid
  rw [hu] at hv
  cases hv
  rw [hn] at hv'
  cases hv'
  simp [State.lateBelow] at hi

/-- The units that the promotion in slot `n` finds in the STANDARD section are those it held at first. -/
theorem promoted_filter (s : State) (n : Nat) :
    (s.queue.standard.filter fun id => !(s.movedBelow n).contains id).filter (fun id => (s.promoted n).contains id)
      = s.promoted n := by
  have hnot := fun id => promoted_not_moved (s := s) (n := n) (id := id)
  rw [List.filter_filter]
  conv_rhs => unfold State.promoted
  refine List.filter_congr fun id hid => ?_
  by_cases hmem : id ∈ s.promoted n
  · simpa [hmem, hnot id hmem] using ((List.mem_filter.mp hmem).2).symm
  · have : ¬_ := fun hb => hmem (List.mem_filter.mpr ⟨hid, hb⟩)
    simpa [hmem] using this

/-- The raise of one more ORDER_LATE and the promotion of no unit. -/
theorem afterLate_raise {s : State} (slots : List (Option Order)) (late moved : List Nat) {n : Nat} {o x : Order}
    (ho : s.order? n = some o) :
    ((s.afterLate slots late moved).setOrder n x).raise .orderLate o.number =
      s.afterLate (slots.set n (some x)) (late ++ [n]) moved := by
  unfold State.afterLate
  rw [List.foldl_append, List.foldl_cons, List.foldl_nil, ho]
  rfl

/-- The promotion of the STANDARD order in slot `n` after those below it. -/
theorem promoteUnits_afterLate {s : State} {slots : List (Option Order)} {late : List Nat} {n : Nat} {o : Order}
    (ho : s.order? n = some o) (standard : o.queueClass = .standard) :
    (promoteUnits n o.number (s.afterLate slots late (s.movedBelow n))).2 =
      s.afterLate slots late (s.movedBelow n ++ s.promoted n) := by
  have hits : ∀ id ∈ s.queue.standard,
      (((s.afterLate slots late (s.movedBelow n)).unit? id).any fun u => u.isOf n o.number)
        = (s.promoted n).contains id := by
    intro id hid
    have hunit : (s.afterLate slots late (s.movedBelow n)).unit? id = s.unit? id := rfl
    simp [hunit, State.promoted, List.contains_eq_mem, List.mem_filter, hid, ho, standard]
  have hmoved : (s.afterLate slots late (s.movedBelow n)).queue.standard.filter
      (fun id => ((s.afterLate slots late (s.movedBelow n)).unit? id).any fun u => u.isOf n o.number)
        = s.promoted n := by
    rw [← promoted_filter s n]
    exact List.filter_congr fun id hid => hits id (List.mem_of_mem_filter hid)
  have hstay : (s.afterLate slots late (s.movedBelow n)).queue.standard.filter
      (fun id => !((s.afterLate slots late (s.movedBelow n)).unit? id).any fun u => u.isOf n o.number)
        = s.queue.standard.filter fun id => !(s.movedBelow n ++ s.promoted n).contains id := by
    show (s.queue.standard.filter _).filter _ = _
    rw [List.filter_filter]
    refine List.filter_congr fun id hid => ?_
    rw [hits id hid, List.contains_append, Bool.not_or, Bool.and_comm]
  rw [promoteUnits_eq, hmoved, hstay]
  unfold State.afterLate
  simp only [List.append_assoc, Bool.or_assoc]
  congr 3
  cases s.movedBelow n <;> simp

theorem lateSlot_latePass {s : State} (clean : CleanStorage s) {n : Nat} (hn : n < s.orders.slots.length) :
    lateSlot n (s.latePass n) = s.latePass (n + 1) := by
  have hclean : CleanStorage (s.latePass n) := clean
  have hpast : (s.latePass n).order? n = s.order? n := order?_passed hn rfl
  have hget := order?_eq_getElem hn
  have hset := passed_set (Option.map (Order.lateAt s.clock.minute)) hn
  have notDue : s.lateDue n = false → (s.order? n).map (Order.lateAt s.clock.minute) = s.order? n →
      s.latePass (n + 1) = s.latePass n := fun hnot hsame => by
    have hbelow : s.lateBelow (n + 1) = s.lateBelow n := by simp [lateBelow_succ, hnot]
    rw [hget] at hsame
    rw [State.latePass, State.latePass, State.movedBelow, State.movedBelow, hbelow, passed_same hn hsame]
  unfold lateSlot
  simp only [readSlot_clean hclean, hpast]
  cases ho : s.order? n with
  | none => exact (notDue (by simp [State.lateDue, ho]) (by rw [ho]; rfl)).symm
  | some o =>
    have hdue : s.lateDue n = o.dueLate s.clock.minute := by simp [State.lateDue, ho]
    show (if o.dueLate s.clock.minute = true then _ else _) = _
    by_cases hlate : o.dueLate s.clock.minute = true
    · have hbelow : s.lateBelow (n + 1) = s.lateBelow n ++ [n] := by simp [lateBelow_succ, hdue, hlate]
      have hmoved : s.movedBelow (n + 1) = s.movedBelow n ++ s.promoted n := by simp [State.movedBelow, hbelow]
      rw [← hget, ho, Option.map_some, Order.lateAt, if_pos hlate] at hset
      rw [if_pos hlate, State.latePass, State.latePass, afterLate_raise _ _ _ ho, hset, hbelow, hmoved]
      by_cases hclass : o.queueClass = .standard
      · rw [if_pos hclass, promoteUnits_afterLate ho hclass]
      · have hnone : s.promoted n = [] := by
          simp [State.promoted, ho, hclass]
        rw [if_neg hclass, hnone, List.append_nil]
    · rw [if_neg hlate]
      exact (notDue (by simp [hdue, hlate]) (by simp [ho, Order.lateAt, hlate])).symm

theorem lateSlots_eq {s : State} (clean : CleanStorage s) : ∀ n ≤ s.orders.slots.length,
    (List.range n).foldl (fun s i => lateSlot i s) s = s.latePass n := by
  intro n
  induction n with
  | zero => intro _; simp [State.latePass, State.afterLate, State.movedBelow, State.lateBelow]
  | succ n ih =>
    intro hn
    rw [List.range_succ, List.foldl_append, ih (by omega), List.foldl_cons, List.foldl_nil, lateSlot_latePass clean hn]

theorem dueLate_iff (o : Order) (minute : Nat) :
    o.dueLate minute =
      (decide (o.state = .held ∨ o.state = .queued ∨ o.state = .exposing ∨ o.state = .fault)
        && !o.late && o.promised.any fun p => decide ((minute + 10080 - p) % 10080 < 1440)) := by
  unfold Order.dueLate
  congr 2
  cases o.state <;> rfl

/-- Settles O34. -/
theorem lateChecks : Obligations.LateChecks := by
  refine ⟨fun s clean hlen => ?_, fun h minute second s calm => ⟨fun hbad => ?_, fun hm hsec => ?_⟩,
    fun s running => ⟨fun hnot => ?_, fun hdue => ?_⟩⟩
  · intro due late moved
    refine ⟨fun hunset => if_neg (by simp [hunset]), fun hset => ?_⟩
    have hpass := lateSlots_eq clean 64 (by rw [hlen])
    have hfun : due = fun o => o.dueLate s.clock.minute := funext fun o => (dueLate_iff o _).symm
    have hlate : late = s.lateBelow 64 := by
      show (List.range 64).filter _ = _
      rw [hfun]
      rfl
    have hmoved : moved = s.movedBelow 64 := by
      show late.flatMap _ = _
      rw [hlate]
      rfl
    unfold lateCheck slotIndexes
    rw [if_pos hset, hpass, hlate, hmoved, hfun, State.latePass, passed_all hlen]
    rfl
  · exact exec_unchanged (c := .setClock h minute second) rfl calm (if_pos hbad)
  · exact congrArg Host.Outcome.next (serveActing_answer calm.accepts (if_neg (by omega)))
  · refine congrArg Host.Outcome.next (whileOnActing_calm running.power ?_ running.noSignal running.noTrial)
    exact if_neg (by simp [hnot])
  · refine congrArg Host.Outcome.next ((whileOnActing_on running.power).trans ?_)
    exact congrArg settle (if_pos hdue)

end Sys2Proof.Machine
end

section
/-! Held trials and spoil reports (R13, R36 to R39, R148; O36, O37). -/

namespace Sys2Proof.Machine

/-! ### Held trials (R13, R37; O36) -/

/-- The state in which the head of the held list is admitted: it has left the list, and the cause is cleared. -/
def State.headLeaves (s : State) (rest : List Nat) : State :=
  { s with
    orders := { s.orders with heldList := rest }
    queue := { s.queue with heldCause := none } }

theorem heldTrials_nil {s : State} (h : s.orders.heldList = []) (n : Nat) : heldTrials (n + 1) s = s.setHeldCause none := by
  simp only [heldTrials, h]

section
variable {s : State} {i : Nat} {rest : List Nat} {o : Order}

theorem heldTrials_fails (clean : CleanStorage s) (hl : s.orders.heldList = i :: rest) (ho : s.order? i = some o)
    {cause : HeldCause} (hc : trialCause s o = some cause) (n : Nat) :
    heldTrials (n + 1) s = s.setHeldCause (some cause) := by
  simp only [heldTrials, hl, readSlot_clean clean, ho, if_true, hc]

theorem heldTrials_admits (clean : CleanStorage s) (hl : s.orders.heldList = i :: rest) (ho : s.order? i = some o)
    (hc : trialCause s o = none) (n : Nat) :
    heldTrials (n + 1) s = heldTrials n (admitOrder i o (s.headLeaves rest)) := by
  simp only [heldTrials, hl, readSlot_clean clean, ho, if_true, hc]
  rfl

end

/-- A held trial that is owed is made when no write cycle runs (R13). -/
theorem runTrials_due {s : State} (due : s.orders.trialDue = true) (idle : s.cycleRuns = false) :
    runTrials s = { heldTrials (s.orders.heldList.length + 1) s with
      orders := { (heldTrials (s.orders.heldList.length + 1) s).orders with trialDue := false } } := by
  unfold runTrials
  rw [if_pos (by simp [due, idle])]

theorem headLeaves_admitted (s : State) (i : Nat) (o : Order) (rest : List Nat) :
    (admitOrder i o (s.headLeaves rest)).orders = { s.orders with
      heldList := rest
      slots := s.orders.slots.set i (some { o with state := .queued, outstanding := o.requested, idle := 0 }) } := by
  rw [admitOrder_eq]
  rfl

theorem unusedSizeLine_some {size : Sheet} {lines : List Line} :
    (unusedSizeLine size lines).isSome = true ↔ ∃ l ∈ lines, size.value (3 * l.size) = 0 := by
  rw [Option.isSome_iff_ne_none, Ne, unusedSizeLine_none]
  simp

/-- What an owed trial leaves: the orders that left the list, which is then a tail of the list that was. -/
structure TrialsRun (s t : State) (gone : List Nat) : Prop where
  tail     : s.orders.heldList = gone ++ t.orders.heldList
  admitted : ∀ i ∈ gone, ∀ o, s.order? i = some o →
    t.order? i = some { o with state := .queued, outstanding := o.requested, idle := 0 }
  others   : ∀ i, i ∉ gone → t.order? i = s.order? i
  noCause  : t.orders.heldList = [] → t.queue.heldCause = none

theorem order?_set {s t : State} {i : Nat} {x : Order} (hi : i < s.orders.slots.length)
    (ht : t.orders.slots = s.orders.slots.set i (some x)) (k : Nat) :
    t.order? k = if k = i then some x else s.order? k := by
  simp only [State.order?, ht, List.getD_eq_getElem?_getD, List.getElem?_set]
  by_cases h : k = i
  · subst h; simp [hi]
  · simp [h, Ne.symm h]

/-- The order that is admitted and the trials that follow. -/
theorem TrialsRun.cons {s t u : State} {i : Nat} {gone : List Nat} {o : Order} (ho : s.order? i = some o)
    (hu : u.orders.slots = s.orders.slots.set i
      (some { o with state := .queued, outstanding := o.requested, idle := 0 }))
    (hl : s.orders.heldList = i :: u.orders.heldList) (run : TrialsRun u t gone) : TrialsRun s t (i :: gone) := by
  have hset := order?_set (order?_lt ho) hu
  refine ⟨by rw [hl, run.tail]; rfl, fun k hk x hx => ?_, fun k hk => ?_, run.noCause⟩
  · by_cases hgone : k ∈ gone
    · by_cases hki : k = i
      · subst hki
        rw [ho] at hx
        cases hx
        have hagain := run.admitted k hgone _ ((hset k).trans (if_pos rfl))
        exact hagain
      · exact run.admitted k hgone _ ((hset k).trans ((if_neg hki).trans hx))
    · have hki : k = i := by simpa [hgone] using hk
      subst hki
      rw [ho] at hx
      cases hx
      rw [run.others k hgone, hset k, if_pos rfl]
  · rw [List.mem_cons, not_or] at hk
    rw [run.others k hk.2, hset k, if_neg hk.1]

theorem heldTrials_run : ∀ (n : Nat) (s : State), CleanStorage s → s.orders.heldList.length < n →
    (∀ i ∈ s.orders.heldList, (s.order? i).isSome = true) → ∃ gone, TrialsRun s (heldTrials n s) gone := by
  intro n
  induction n with
  | zero => intro s _ h; omega
  | succ n ih =>
    intro s clean hn live
    cases hl : s.orders.heldList with
    | nil =>
      rw [heldTrials_nil hl]
      exact ⟨[], rfl, by simp, fun _ _ => rfl, fun _ => rfl⟩
    | cons i rest =>
      rw [hl] at hn live
      obtain ⟨o, ho⟩ := Option.isSome_iff_exists.mp (live i List.mem_cons_self)
      cases hc : trialCause s o with
      | some cause =>
        rw [heldTrials_fails clean hl ho hc]
        refine ⟨[], rfl, by simp, fun _ _ => rfl, fun hnil => ?_⟩
        rw [show s.orders.heldList = [] from hnil] at hl
        cases hl
      | none =>
        rw [heldTrials_admits clean hl ho hc]
        have horders := headLeaves_admitted s i o rest
        have hslots := congrArg OrderTable.slots horders
        have hlist := congrArg OrderTable.heldList horders
        have hclean : CleanStorage (admitOrder i o (s.headLeaves rest)) := by
          rw [admitOrder_eq]; exact clean
        have hset := order?_set (order?_lt ho) hslots
        obtain ⟨gone, run⟩ := ih _ hclean (by rw [hlist]; simpa using hn) (by
          intro k hk
          rw [hlist] at hk
          rw [hset k]
          split
          · rfl
          · exact live k (List.mem_cons_of_mem _ hk))
        exact ⟨i :: gone, run.cons ho hslots (by rw [hlist]; exact hl)⟩

/-- Settles O36. -/
theorem heldTrialsStopAtTheHead : Obligations.HeldTrialsStopAtTheHead := by
  intro s due idle clean t size tried
  have hrun := runTrials_due due idle
  refine ⟨fun hnil => ?_, fun i rest o hl ho => ?_, fun live => ?_⟩
  · exact hrun.trans (by rw [heldTrials_nil hnil]; rfl)
  · intro unused fails
    have hfail : ∀ cause, trialCause s o = some cause → fails cause := fun cause hc =>
      hrun.trans (by rw [heldTrials_fails clean hl ho hc]; rfl)
    have hnone : ¬unused → (unusedSizeLine s.store.size o.lines).isSome = false := fun h =>
      Bool.eq_false_iff.mpr fun hsome => h (unusedSizeLine_some.mp hsome)
    refine ⟨fun hbad => hfail _ (if_pos hbad), fun hgood hun => hfail _ ?_, fun hgood hun hroom => hfail _ ?_,
      fun hgood hun hroom => ?_⟩
    · unfold trialCause
      rw [if_neg (by simp [show s.store.size.bad = false from hgood]), if_pos (unusedSizeLine_some.mpr hun)]
    · unfold trialCause
      rw [if_neg (by simp [show s.store.size.bad = false from hgood]), if_neg (by simp [hnone hun]),
        if_neg (by simp [State.hasRoom, Config.admissionLimit, hroom])]
    · have hc : trialCause s o = none := by
        unfold trialCause
        rw [if_neg (by simp [show s.store.size.bad = false from hgood]), if_neg (by simp [hnone hun]),
          if_pos (by simp [State.hasRoom, Config.admissionLimit, hroom])]
      have horders := headLeaves_admitted s i o rest
      have hnext : runTrials (admitOrder i o (s.headLeaves rest)) = _ := runTrials_due
        ((congrArg OrderTable.trialDue horders).trans due) (by rw [admitOrder_eq]; exact idle)
      have hlist : (admitOrder i o (s.headLeaves rest)).orders.heldList = rest := congrArg OrderTable.heldList horders
      refine hrun.trans (Eq.trans ?_ hnext.symm)
      rw [heldTrials_admits clean hl ho hc, hl, hlist]
      rfl
  · obtain ⟨gone, run⟩ := heldTrials_run _ s clean (Nat.lt_succ_self _) live
    have ht : t = _ := hrun
    rw [ht]
    exact ⟨gone, run.tail, run.admitted, run.others, run.noCause, rfl⟩

/-! ### Spoil reports (R38, R39, R148; O37) -/

/-- The state in which a unit is marked SPOILED. -/
def State.markSpoiled (s : State) (id : Nat) (u : PrintUnit) : State := s.setUnit id { u with spoiled := true }

section
variable {id i : Nat} {u : PrintUnit} {o : Order} {s : State}

/-- The order of a unit that its slot holds under the unit's number (R32). -/
theorem soundOrder_some : s.soundOrder u = some o ↔
    ∃ i, u.slot = some i ∧ s.order? i = some o ∧ u.number = some o.number ∧ o.state ≠ .damaged := by
  unfold State.soundOrder State.unitOrder
  cases hslot : u.slot with
  | none => simp
  | some i =>
    cases ho : s.order? i with
    | none => simp [ho]
    | some x =>
      by_cases hn : u.number = some x.number
      · simp [hn]
      · simp

theorem spoilsCount_iff (state : OrderState) :
    state.spoilsCount = true ↔ state = .queued ∨ state = .exposing ∨ state = .fault := by
  cases state <;> simp [OrderState.spoilsCount]

theorem spoilReport_strip (hu : s.unit? id = some u) (fresh : u.spoiled = false) (strip : u.kind = .strip) :
    spoilReport id s = stripSpoiled id (s.markSpoiled id u) := by
  simp only [spoilReport, hu]
  rw [if_neg (by simp [fresh]), if_pos strip]
  rfl

/-- A spoiled print that no order counts (R38). -/
theorem spoilReport_uncounted (clean : CleanStorage s) (hu : s.unit? id = some u) (fresh : u.spoiled = false)
    (print : u.kind ≠ .strip)
    (none : u.void = true ∨ ∀ o, s.soundOrder u = some o → o.state.spoilsCount = false) :
    spoilReport id s = s.markSpoiled id u := by
  have hclean : CleanStorage (s.markSpoiled id u) := clean
  have hmark : s.setUnit id { u with spoiled := true } = s.markSpoiled id u := rfl
  have hsound : (s.markSpoiled id u).soundOrder u = s.soundOrder u := rfl
  simp only [spoilReport, hu, fresh, print, Bool.false_eq_true, if_false, hmark]
  by_cases hvoid : u.void = true
  · rw [if_pos hvoid]
  · rw [if_neg hvoid]
    cases hslot : u.slot with
    | none => rfl
    | some i =>
      simp only [readSlot_clean hclean, hsound]
      cases ho : s.soundOrder u with
      | none => rfl
      | some o =>
        have hcount := none.resolve_left hvoid o ho
        simp only [hcount, Bool.false_eq_true, if_false]

/-- A spoiled print of an order in QUEUED, EXPOSING or FAULT (R38, R39). -/
theorem spoilReport_counted (clean : CleanStorage s) (hu : s.unit? id = some u) (fresh : u.spoiled = false)
    (print : u.kind ≠ .strip) (valid : u.void = false) (hslot : u.slot = some i) (ho : s.soundOrder u = some o)
    (counts : o.state.spoilsCount = true) :
    spoilReport id s = if u.lineage < 2 then spoilReprinted i o u (s.markSpoiled id u)
      else spoilMissing i o u (s.markSpoiled id u) := by
  have hclean : CleanStorage (s.markSpoiled id u) := clean
  have hmark : s.setUnit id { u with spoiled := true } = s.markSpoiled id u := rfl
  have hsound : (s.markSpoiled id u).soundOrder u = some o := ho
  simp only [spoilReport, hu, hmark]
  rw [if_neg (by simp [fresh]), if_neg print, if_neg (by simp [valid])]
  simp only [hslot, readSlot_clean hclean, hsound]
  exact if_pos counts

/-- With a FREE record there is a lowest one. -/
theorem lowest_free {pool : List (Option PrintUnit)} (h : ∃ free < pool.length, recordOf pool free = none) :
    ∃ made, pool.findIdx? Option.isNone = some made := by
  obtain ⟨free, hlt, hfree⟩ := h
  cases hfind : pool.findIdx? Option.isNone with
  | some made => exact ⟨made, rfl⟩
  | none =>
    have hall := List.findIdx?_eq_none_iff.mp hfind _ (List.getElem_mem hlt)
    simp [recordOf, List.getD_eq_getElem?_getD, List.getElem?_eq_getElem hlt] at hfree
    simp [hfree] at hall

/-- The reprint of a spoiled unit, made in the FREE record `made` (R38). -/
theorem spoilReprinted_eq {made : Nat} (hfind : s.queue.pool.findIdx? Option.isNone = some made) :
    spoilReprinted i o u s = { s with
      queue := { s.queue with
        pool := s.queue.pool.set made (some (u.reprint (u.lineage + 1))), signal := true
        rush := if o.queueClass = .rush then made :: s.queue.rush else s.queue.rush
        standard := if o.queueClass = .standard then made :: s.queue.standard else s.queue.standard }
      orders := { s.orders with
        slots := s.orders.slots.set i (some { o with spoils := min (o.spoils + 1) 65535 }) } } := by
  simp only [spoilReprinted, State.makeUnit, hfind, joinHead_eq]
  rfl

end

/-- Settles O37. -/
theorem spoilIsReprintedOrMissing : Obligations.SpoilIsReprintedOrMissing := by
  refine ⟨fun id u s clean hu => ?_, fun id i u o s clean hu print valid hslot ho hnumber hstate => ?_⟩
  · intro marked
    refine ⟨fun hspoiled => ?_, fun fresh strip => ⟨fun surface abandoned hout => ?_, fun hnot => ?_⟩,
      fun fresh print hnone => ?_⟩
    · simp only [spoilReport, hu, hspoiled, if_true]
    · rw [spoilReport_strip hu fresh strip]
      have hstrip : (s.markSpoiled id u).cal.strip = .out surface id abandoned := hout
      simp only [stripSpoiled, hstrip, if_true]
      rfl
    · rw [spoilReport_strip hu fresh strip]
      unfold stripSpoiled
      have hstrip : (s.markSpoiled id u).cal.strip = s.cal.strip := rfl
      split
      · next surface unit abandoned hout =>
        rw [if_neg fun h => hnot surface abandoned (by rw [← hstrip, hout, h])]
        rfl
      · rfl
    · refine spoilReport_uncounted clean hu fresh print (hnone.imp_right fun hstates o ho => ?_)
      obtain ⟨i, hslot, hi, hnumber, -⟩ := soundOrder_some.mp ho
      have hnot := hstates i o hslot hi hnumber
      rw [← Bool.not_eq_true, spoilsCount_iff]
      tauto
  · have counts := (spoilsCount_iff o.state).mpr hstate
    have hsound : s.soundOrder u = some o := soundOrder_some.mpr ⟨i, hslot, ho, hnumber, by
      rintro hd; rw [hd] at hstate; simp at hstate⟩
    have hid := recordOf_lt hu
    refine ⟨fun fresh hlineage hfree => ?_, fun fresh hlineage entry hentry => ?_⟩
    · have hreport := (spoilReport_counted clean hu fresh print valid hslot hsound counts).trans (if_pos hlineage)
      have hpool : (s.markSpoiled id u).queue.pool = s.queue.pool.set id (some { u with spoiled := true }) := rfl
      obtain ⟨free, hlt, hnone⟩ := hfree
      have hne : free ≠ id := by rintro rfl; rw [hnone] at hu; cases hu
      obtain ⟨made, hfind⟩ := lowest_free (pool := (s.markSpoiled id u).queue.pool)
        ⟨free, by simpa [hpool] using hlt, by rw [hpool, recordOf_set_ne _ _ hne]; exact hnone⟩
      obtain ⟨hmade, hmadeFree, hbelow⟩ := findIdx?_free.mp hfind
      rw [spoilReprinted_eq hfind] at hreport
      have hmadeNe : made ≠ id := by
        rintro rfl
        rw [hpool, recordOf_set_self hid] at hmadeFree
        cases hmadeFree
      refine ⟨made, by rwa [hpool, recordOf_set_ne _ _ hmadeNe] at hmadeFree, fun k hk => ?_, ?_⟩
      · by_cases hkid : k = id
        · rw [hkid, hu]; rfl
        · have := hbelow k hk
          rwa [hpool, recordOf_set_ne _ _ hkid] at this
      · intro t
        have ht : t = _ := hreport
        have htpool : t.queue.pool = (s.queue.pool.set id (some { u with spoiled := true })).set made
            (some (u.reprint (u.lineage + 1))) := by rw [ht]; rfl
        refine ⟨?_, ?_, fun k hk hkm => ?_, ?_⟩
        · rw [unit?_eq, htpool, recordOf_set_ne _ _ hmadeNe.symm, recordOf_set_self hid]
        · rw [unit?_eq, htpool, recordOf_set_self (by simpa [hpool] using hmade)]
          rfl
        · rw [unit?_eq, htpool, recordOf_set_ne _ _ hkm, recordOf_set_ne _ _ hk]
          rfl
        · rw [htpool]
          exact ht
    · refine (spoilReport_counted clean hu fresh print valid hslot hsound counts).trans
        ((if_neg (by omega)).trans ?_)
      have hfigures : (s.markSpoiled id u).figures? i = some entry := hentry
      simp only [spoilMissing, hfigures]
      rfl

end Sys2Proof.Machine
end

section
/-! The Link Controller's tests of a taken frame (R163, R164; O13). -/

namespace Sys2Proof.Machine

theorem readItems_unknown {code : Nat} (h : isRequestCode code = false) (body : List Byte) : readItems code body = none := by
  unfold readItems
  split
  all_goals simp [isRequestCode] at h ⊢

theorem bodyFits_unknown {code : Nat} (h : isRequestCode code = false) (body : List Byte) : bodyFits code body = false := by
  unfold bodyFits
  split
  all_goals simp [isRequestCode] at h ⊢

/-- Only the codes of the catalogue are read (R167). -/
theorem readRequest_isRequestCode {code : Nat} {body : List Byte} {r : Request} (h : readRequest code body = some r) :
    isRequestCode code = true := by
  by_contra hno
  have hunknown := Bool.eq_false_iff.mpr hno
  simp [readRequest, readItems_unknown hunknown, bodyFits_unknown hunknown] at h

/-- The state in which the head frame has been taken out of the receive queue. -/
def State.frameTaken (s : State) (rest : List Frame) : State := s.mapLink fun k => { k with queue := rest }

section
variable {f : Frame} {rest : List Frame} {s : State}

theorem accepts_iff : s.accepts = true ↔ s.power = .on ∧ s.link.phase = .idle := by
  simp [State.accepts]

theorem takeRequest_idle (idle : s.link.phase = .idle) (hq : s.link.queue = f :: rest) :
    takeRequest s = if f.broadcast = true then takeBroadcast f rest.length (s.frameTaken rest)
      else takeAddressed f rest.length (s.frameTaken rest) := by
  unfold takeRequest
  rw [idle, hq]
  rfl

theorem exec_requestTaken (calm : Calm s) (hq : s.link.queue = f :: rest) {t : State}
    (ht : (if f.broadcast = true then takeBroadcast f rest.length (s.frameTaken rest)
      else takeAddressed f rest.length (s.frameTaken rest)) = t) :
    exec .requestTaken s = .next (settle t) := by
  obtain ⟨on, idle⟩ := accepts_iff.mp calm.accepts
  refine congrArg Host.Outcome.next ((whileOnActing_on on).trans ?_)
  rw [takeRequest_idle idle hq, ht]

/-- A frame whose answer leaves the rest of the part as it is. -/
theorem exec_requestTaken_calm (calm : Calm s) (hq : s.link.queue = f :: rest) {link : LinkController}
    (ht : (if f.broadcast = true then takeBroadcast f rest.length (s.frameTaken rest)
      else takeAddressed f rest.length (s.frameTaken rest)) = { s with link }) :
    exec .requestTaken s = .next { s with link } := by
  rw [exec_requestTaken calm hq ht]
  exact congrArg Host.Outcome.next (settle_calm (s := { s with link }) calm.noSignal calm.noTrial)

/-- The lab station's requests, and LINK_SETUP before the link is set up, pass the rights test (R165, R168). -/
theorem passRights_passes {h : Header} {broadcast : Bool} {r : Request} {queued : Nat}
    (pass : s.link.lab = some h.source ∨ s.link.setUp = false) :
    passRights h broadcast r queued s = conclude h broadcast r queued (decideRequest h.source queued false r s) := by
  have htest : rightsTest h.source r s = (.pass none, s) := if_pos pass
  simp only [passRights, htest]

end

section
variable {f : Frame} {rest : List Frame} {s : State}

/-- The effect of a SET_CLOCK by broadcast that the rights test admits (R164). -/
theorem conclude_broadcast (h : Header) (r : Request) (queued : Nat) (status : Status) (body : List Byte) {t : State}
    (idle : t.link.phase = .idle) : conclude h true r queued (.answer status body, t) = t := by
  show (t.mapLink fun k => { k with phase := .idle }) = t
  rw [← idle]
  rfl

/-- An enabled station with the control right passes the rights test of a SET_CLOCK (R168). -/
theorem rightsTest_setClock {source minute second : Nat}
    (h : s.link.lab = some source ∨ (s.cycleRuns = false ∧ s.store.stations.bad = false
      ∧ (rightsOf (s.store.stations.entry (source - 1))).enabled = true
      ∧ (rightsOf (s.store.stations.entry (source - 1))).control = true)) :
    rightsTest source (.setClock minute second) s = (.pass none, s) := by
  by_cases hlab : s.link.lab = some source ∨ s.link.setUp = false
  · exact if_pos hlab
  · obtain ⟨idle, good, enabled, control⟩ := h.resolve_left fun hl => hlab (.inl hl)
    refine (if_neg hlab).trans ((if_neg (by simp [idle])).trans ?_)
    simp [entryTest, good, enabled, Rights.allows, rightClass, control, namedNumber]

end

/-- Settles O13. -/
theorem takenFrameIsTested : Obligations.TakenFrameIsTested := by
  refine ⟨fun f rest s calm hq addressed => ?_, fun f rest s calm hq broadcast => ?_⟩
  · intro response
    have hexec : ∀ status, takeAddressed f rest.length (s.frameTaken rest) = response status →
        exec .requestTaken s = .next (response status) := fun status h =>
      exec_requestTaken_calm calm hq ((if_neg (by simp [addressed])).trans h)
    have past : s.link.setUp = true ∨ f.code = 0x20 → ¬((s.frameTaken rest).link.setUp = false ∧ f.code ≠ 0x20) := by
      rintro (h | h) ⟨hnot, hcode⟩
      · rw [show (s.frameTaken rest).link.setUp = s.link.setUp from rfl, h] at hnot; cases hnot
      · exact hcode h
    refine ⟨fun unset hcode => hexec _ (if_pos ⟨unset, hcode⟩), fun hpast hcode => hexec _ ?_,
      fun hpast hlow hhigh hread => hexec _ ?_, fun hpass hread => hexec _ ?_⟩
    · have hunknown : isRequestCode f.code = false := by
        simp only [isRequestCode, Bool.and_eq_false_iff, decide_eq_false_iff_not]
        omega
      exact (if_neg (past hpast)).trans (if_pos hunknown)
    · have hknown : isRequestCode f.code = true := by simp [isRequestCode, hlow, hhigh]
      unfold takeAddressed
      simp only [if_neg (past hpast), hknown, hread, Bool.true_eq_false, if_false]
      rfl
    · have hknown := readRequest_isRequestCode hread
      have hlab : (s.frameTaken rest).link.lab = some f.source ∨ (s.frameTaken rest).link.setUp = false :=
        hpass.imp And.right And.left
      unfold takeAddressed
      simp only [if_neg (past (hpass.imp And.left And.right)), hknown, hread, Bool.true_eq_false, if_false]
      exact passRights_passes (h := { source := f.source, tag := f.tag }) hlab
  · intro taken
    refine ⟨fun hno => ?_, fun minute second setUp hcode hread rights => ?_⟩
    · refine exec_requestTaken_calm calm hq ((if_pos broadcast).trans ?_)
      unfold takeBroadcast
      by_cases hclock : (s.frameTaken rest).link.setUp = true ∧ f.code = 0x0A
      · have hread : readRequest f.code f.body = none := by
          rcases hno with h | h | h
          · rw [show (s.frameTaken rest).link.setUp = s.link.setUp from rfl, h] at hclock
            cases hclock.1
          · exact absurd hclock.2 h
          · exact h
        simp only [if_pos hclock, hread]
        rfl
      · exact if_neg hclock
    · have hidle : (s.frameTaken rest).link.phase = .idle := (accepts_iff.mp calm.accepts).2
      have htake : takeBroadcast f rest.length (s.frameTaken rest) =
          conclude { source := f.source, tag := f.tag } true (.setClock minute second) rest.length
            (decideSetClock minute second (s.frameTaken rest)) := by
        have htest : rightsTest f.source (.setClock minute second) (s.frameTaken rest) = (.pass none, s.frameTaken rest) :=
          rightsTest_setClock rights
        unfold takeBroadcast
        rw [if_pos ⟨setUp, hcode⟩]
        simp only [hread, passRights, htest]
        rfl
      refine ⟨fun hbad => ?_, fun hm hsec => ?_⟩
      · refine exec_requestTaken_calm calm hq ((if_pos broadcast).trans (htake.trans ?_))
        rw [show decideSetClock minute second (s.frameTaken rest) = (.answer .badValue [], s.frameTaken rest) from
          if_pos hbad, conclude_broadcast _ _ _ _ _ hidle]
        rfl
      · rw [exec_requestTaken calm hq ((if_pos broadcast).trans htake)]
        rw [show decideSetClock minute second (s.frameTaken rest) = (.answer .ok [], lateCheck
          { s.frameTaken rest with clock := { (s.frameTaken rest).clock with minute, second, isSet := true } }) from
          if_neg (by omega), conclude_broadcast _ _ _ _ _ (by rw [(Leaves.refl _).after_lateCheck.link]; exact hidle)]
        rfl

end Sys2Proof.Machine
end

section
/-! Accesses to a slot with wrong bits (R25, R177, R178; O21). -/

namespace Sys2Proof.Machine

/-! ### The wrong words that some upsets make -/

/-- The wrong bits that some upsets put into one word of a slot. -/
def wrongBits (us : List Upset) (i : Nat) (word : RecordWord) : Nat :=
  ((us.filter fun u => u.slot == i && u.word == word).map Upset.bits).sum

/-- The word of a slot that an upset stands in. -/
def wordKey (u : Upset) : Nat × RecordWord := (u.slot, u.word)

theorem wrongBits_nil (i : Nat) (word : RecordWord) : wrongBits [] i word = 0 := rfl

theorem wrongBits_cons (u : Upset) (us : List Upset) (i : Nat) (word : RecordWord) :
    wrongBits (u :: us) i word = (if wordKey u = (i, word) then u.bits else 0) + wrongBits us i word := by
  by_cases h : wordKey u = (i, word)
  · simp [wrongBits, h, Prod.mk.inj h]
  · have hno : (u.slot == i && u.word == word) = false := by
      rw [Bool.eq_false_iff]
      intro hb
      simp only [Bool.and_eq_true, beq_iff_eq] at hb
      exact h (by rw [wordKey, hb.1, hb.2])
    simp [wrongBits, hno, h]

theorem wrongBits_addUpset (u : Upset) (us : List Upset) (i : Nat) (word : RecordWord) :
    wrongBits (addUpset u us) i word = (if wordKey u = (i, word) then u.bits else 0) + wrongBits us i word := by
  induction us with
  | nil => exact wrongBits_cons u [] i word
  | cons v rest ih =>
    unfold addUpset
    by_cases hkey : v.slot = u.slot ∧ v.word = u.word
    · rw [if_pos hkey, wrongBits_cons, wrongBits_cons]
      have hv : wordKey v = wordKey u := by rw [wordKey, wordKey, hkey.1, hkey.2]
      have hsum : wordKey ({ v with bits := v.bits + u.bits } : Upset) = wordKey u := hv
      rw [hsum, hv]
      by_cases hk : wordKey u = (i, word)
      · simp only [hk, if_true]
        omega
      · simp only [hk, if_false]
        omega
    · rw [if_neg hkey, wrongBits_cons, wrongBits_cons, ih]
      omega

theorem addUpset_keys (u : Upset) (us : List Upset) :
    (addUpset u us).map wordKey = if wordKey u ∈ us.map wordKey then us.map wordKey else us.map wordKey ++ [wordKey u] := by
  induction us with
  | nil => rfl
  | cons v rest ih =>
    unfold addUpset
    by_cases hkey : v.slot = u.slot ∧ v.word = u.word
    · have hv : wordKey u = wordKey v := by rw [wordKey, wordKey, hkey.1, hkey.2]
      rw [if_pos hkey, if_pos (by simp [hv])]
      rfl
    · have hv : wordKey u ≠ wordKey v := fun h => hkey ⟨(Prod.mk.inj h).1.symm, (Prod.mk.inj h).2.symm⟩
      rw [if_neg hkey, List.map_cons, ih]
      simp only [List.map_cons, List.mem_cons, hv, false_or]
      split <;> rfl

/-- The wrong words: one entry a word, with all its wrong bits (R177, log entry 31). -/
theorem foldl_addUpset_spec (us words : List Upset) (hw : (words.map wordKey).Nodup) :
    ((us.foldl (fun words u => addUpset u words) words).map wordKey).Nodup
      ∧ ∀ i word, wrongBits (us.foldl (fun words u => addUpset u words) words) i word =
          wrongBits us i word + wrongBits words i word := by
  induction us generalizing words with
  | nil => exact ⟨hw, fun _ _ => (Nat.zero_add _).symm⟩
  | cons u us ih =>
    have hnodup : ((addUpset u words).map wordKey).Nodup := by
      rw [addUpset_keys]
      split
      · exact hw
      · next hnot =>
        rw [List.nodup_append]
        exact ⟨hw, by simp, fun a ha b hb => by rintro rfl; exact hnot (List.mem_singleton.mp hb ▸ ha)⟩
    obtain ⟨hnd, hsum⟩ := ih (addUpset u words) hnodup
    refine ⟨hnd, fun i word => (hsum i word).trans ?_⟩
    rw [wrongBits_addUpset, wrongBits_cons]
    omega

theorem wrongWords_nodup (us : List Upset) : ((wrongWords us).map wordKey).Nodup :=
  (foldl_addUpset_spec us [] List.nodup_nil).1

theorem wrongBits_wrongWords (us : List Upset) (i : Nat) (word : RecordWord) :
    wrongBits (wrongWords us) i word = wrongBits us i word :=
  ((foldl_addUpset_spec us [] List.nodup_nil).2 i word).trans (Nat.add_zero _)

/-- In a list of one entry a word, an entry holds all the wrong bits of its word. -/
theorem wrongBits_mem {words : List Upset} (hnodup : (words.map wordKey).Nodup) {u : Upset} (hu : u ∈ words) :
    wrongBits words u.slot u.word = u.bits := by
  induction words with
  | nil => cases hu
  | cons v rest ih =>
    obtain ⟨hv, hrest⟩ := List.nodup_cons.mp (by simpa only [List.map_cons] using hnodup)
    rw [wrongBits_cons]
    rcases List.mem_cons.mp hu with rfl | hmem
    · have hzero : ∀ l : List Upset, wordKey u ∉ l.map wordKey → wrongBits l u.slot u.word = 0 := by
        intro l
        induction l with
        | nil => exact fun _ => rfl
        | cons x l ihl =>
          intro hx
          rw [List.map_cons, List.mem_cons, not_or] at hx
          rw [wrongBits_cons, if_neg (fun h => hx.1 h.symm), ihl hx.2]
      rw [if_pos (show wordKey u = (u.slot, u.word) from rfl), hzero rest hv, Nat.add_zero]
    · rw [if_neg (show ¬wordKey v = (u.slot, u.word) from fun h => hv (h ▸ List.mem_map_of_mem (f := wordKey) hmem)), ih hrest hmem, Nat.zero_add]

/-- A word with wrong bits has an entry. -/
theorem exists_of_wrongBits {words : List Upset} {i : Nat} {word : RecordWord} (h : wrongBits words i word ≠ 0) :
    ∃ u ∈ words, u.slot = i ∧ u.word = word := by
  induction words with
  | nil => exact absurd rfl h
  | cons v rest ih =>
    rw [wrongBits_cons] at h
    by_cases hk : wordKey v = (i, word)
    · exact ⟨v, List.mem_cons_self, (Prod.mk.inj hk).1, (Prod.mk.inj hk).2⟩
    · rw [if_neg hk, Nat.zero_add] at h
      obtain ⟨u, hu, hkey⟩ := ih h
      exact ⟨u, List.mem_cons_of_mem _ hu, hkey⟩

theorem addUpset_ne_nil (u : Upset) (us : List Upset) : addUpset u us ≠ [] := by
  cases us with
  | nil => simp [addUpset]
  | cons v rest =>
    unfold addUpset
    split <;> simp

/-- Every upset is in some wrong word. -/
theorem wrongWords_eq_nil {us : List Upset} (h : wrongWords us = []) : us = [] := by
  have hstay : ∀ (us words : List Upset), words ≠ [] → us.foldl (fun words u => addUpset u words) words ≠ [] := by
    intro us
    induction us with
    | nil => exact fun _ hw => hw
    | cons u us ih => exact fun words _ => ih _ (addUpset_ne_nil u words)
  cases us with
  | nil => rfl
  | cons u us => exact absurd h (hstay us _ (addUpset_ne_nil u []))

/-- The upsets of one word are one wrong word (log entry 31). -/
theorem wrongWords_same {i : Nat} {word : RecordWord} {us : List Upset} (same : ∀ u ∈ us, u.slot = i ∧ u.word = word)
    (some : us ≠ []) : wrongWords us = [{ slot := i, word, bits := (us.map Upset.bits).sum }] := by
  have hfold : ∀ (us : List Upset) (n : Nat), (∀ u ∈ us, u.slot = i ∧ u.word = word) →
      us.foldl (fun words u => addUpset u words) [{ slot := i, word, bits := n }] =
        [{ slot := i, word, bits := n + (us.map Upset.bits).sum }] := by
    intro us
    induction us with
    | nil => exact fun _ _ => rfl
    | cons u us ih =>
      intro n hsame
      obtain ⟨hu, hus⟩ := List.forall_mem_cons.mp hsame
      rw [List.foldl_cons, addUpset_same ⟨hu.1.symm, hu.2.symm⟩, ih _ hus, List.map_cons, List.sum_cons, Nat.add_assoc]
  cases us with
  | nil => exact absurd rfl some
  | cons u us =>
    obtain ⟨⟨hslot, hword⟩, hus⟩ := List.forall_mem_cons.mp same
    have hu : addUpset u [] = [{ slot := i, word, bits := u.bits }] := by rw [addUpset, ← hslot, ← hword]
    rw [wrongWords, List.foldl_cons, hu, hfold us u.bits hus, List.map_cons, List.sum_cons]

/-! ### Reading the wrong words -/

@[simp] theorem countCorrection_orders (s : State) (i : Nat) : (s.countCorrection i).orders = s.orders := by
  unfold State.countCorrection
  split
  · dsimp only
    split <;> rfl
  · rfl

@[simp] theorem countCorrection_upsets (s : State) (i : Nat) : (s.countCorrection i).memory.upsets = s.memory.upsets := by
  unfold State.countCorrection
  split
  · dsimp only
    split <;> rfl
  · rfl

/-- What the reading of some words, from what was found before, may find and change. -/
structure WordsRead (words : List Upset) (f : AccessFinding) (s : State) (r : AccessFinding × State) : Prop where
  orders  : r.2.orders = s.orders
  upsets  : r.2.memory.upsets = s.memory.upsets
  misread : ∀ w ∈ r.1.misread, w ∈ f.misread ∨ ∃ u ∈ words, u.word = w ∧ 3 ≤ u.bits
  damaged : f.damaged = true ∨ (∃ u ∈ words, u.bits = 2) → r.1.damaged = true
  lost    : r.1.numberLost = true → f.numberLost = true ∨ ∃ u ∈ words, u.word = .number ∧ 2 ≤ u.bits
  losing  : f.numberLost = true ∨ (∃ u ∈ words, u.word = .number ∧ u.bits = 2) → r.1.numberLost = true

theorem WordsRead.append {words more : List Upset} {f g : AccessFinding} {s t : State} {r : AccessFinding × State}
    (first : WordsRead words f s (g, t)) (then_ : WordsRead more g t r) : WordsRead (words ++ more) f s r := by
  refine ⟨then_.orders.trans first.orders, then_.upsets.trans first.upsets, fun w hw => ?_, fun h => ?_, fun h => ?_,
    fun h => ?_⟩
  · rcases then_.misread w hw with hg | ⟨u, hu, hbits⟩
    · exact (first.misread w hg).imp_right fun ⟨u, hu, hb⟩ => ⟨u, List.mem_append_left _ hu, hb⟩
    · exact .inr ⟨u, List.mem_append_right _ hu, hbits⟩
  · rcases h with hf | ⟨u, hu, hbits⟩
    · exact then_.damaged (.inl (first.damaged (.inl hf)))
    · rcases List.mem_append.mp hu with hu | hu
      · exact then_.damaged (.inl (first.damaged (.inr ⟨u, hu, hbits⟩)))
      · exact then_.damaged (.inr ⟨u, hu, hbits⟩)
  · rcases then_.lost h with hg | ⟨u, hu, hbits⟩
    · exact (first.lost hg).imp_right fun ⟨u, hu, hb⟩ => ⟨u, List.mem_append_left _ hu, hb⟩
    · exact .inr ⟨u, List.mem_append_right _ hu, hbits⟩
  · rcases h with hf | ⟨u, hu, hbits⟩
    · exact then_.losing (.inl (first.losing (.inl hf)))
    · rcases List.mem_append.mp hu with hu | hu
      · exact then_.losing (.inl (first.losing (.inr ⟨u, hu, hbits⟩)))
      · exact then_.losing (.inr ⟨u, hu, hbits⟩)

/-- One word: clean, corrected or uncorrectable, and used as it stands with three wrong bits or more. -/
theorem readWord_spec (i : Nat) (u : Upset) (f : AccessFinding) (s : State) :
    WordsRead [u] f s (readWords i [u] (f, s)) := by
  have htwo : u.bits = 2 → upsetFinding u s.draws = .uncorrectable := fun h => by simp [upsetFinding, h]
  have hone : upsetFinding u s.draws = .uncorrectable → 2 ≤ u.bits := by
    intro h
    by_contra hlt
    obtain hb | hb : u.bits = 0 ∨ u.bits = 1 := by omega
    · simp [upsetFinding, hb] at h
    · simp [upsetFinding, hb] at h
  simp only [readWords]
  generalize hused : (if decide (3 ≤ u.bits) = true then { f with misread := u.word :: f.misread } else f) = used
  generalize hdrawn : (if decide (3 ≤ u.bits) = true then s.drawn else s) = t
  have ht : t.orders = s.orders ∧ t.memory.upsets = s.memory.upsets := by
    rw [← hdrawn]; split <;> exact ⟨rfl, rfl⟩
  have hmis : ∀ w ∈ used.misread, w ∈ f.misread ∨ ∃ v ∈ [u], v.word = w ∧ 3 ≤ v.bits := by
    rw [← hused]
    split
    · next hwide =>
      intro w hw
      rcases List.mem_cons.mp hw with rfl | hw
      · exact .inr ⟨u, List.mem_singleton_self u, rfl, of_decide_eq_true hwide⟩
      · exact .inl hw
    · exact fun w hw => .inl hw
  have hflags : used.damaged = f.damaged ∧ used.numberLost = f.numberLost := by
    rw [← hused]; split <;> exact ⟨rfl, rfl⟩
  have hnone : ∀ v ∈ [u], upsetFinding u s.draws ≠ .uncorrectable → v.bits ≠ 2 := fun v hv hne hb =>
    hne (htwo (by rw [← List.mem_singleton.mp hv]; exact hb))
  cases hfind : upsetFinding u s.draws with
  | clean =>
    exact ⟨ht.1, ht.2, hmis,
      fun h => hflags.1 ▸ h.resolve_right fun ⟨v, hv, hb⟩ => hnone v hv (by simp [hfind]) hb,
      fun h => .inl (hflags.2 ▸ h), fun h => hflags.2 ▸ h.resolve_right fun ⟨v, hv, _, hb⟩ => hnone v hv (by simp [hfind]) hb⟩
  | corrected =>
    exact ⟨(countCorrection_orders t i).trans ht.1, (countCorrection_upsets t i).trans ht.2, hmis,
      fun h => hflags.1 ▸ h.resolve_right fun ⟨v, hv, hb⟩ => hnone v hv (by simp [hfind]) hb,
      fun h => .inl (hflags.2 ▸ h), fun h => hflags.2 ▸ h.resolve_right fun ⟨v, hv, _, hb⟩ => hnone v hv (by simp [hfind]) hb⟩
  | uncorrectable =>
    refine ⟨ht.1, ht.2, fun w hw => .inl hw, fun _ => rfl, fun h => ?_, fun h => ?_⟩
    · rcases Bool.or_eq_true_iff.mp h with hf | hw
      · exact .inl hf
      · exact .inr ⟨u, List.mem_singleton_self u, of_decide_eq_true hw, hone hfind⟩
    · rcases h with hf | ⟨v, hv, hw, -⟩
      · exact Bool.or_eq_true_iff.mpr (.inl hf)
      · rw [List.mem_singleton.mp hv] at hw
        exact Bool.or_eq_true_iff.mpr (.inr (decide_eq_true hw))

theorem readWords_spec (i : Nat) (words : List Upset) (f : AccessFinding) (s : State) :
    WordsRead words f s (readWords i words (f, s)) := by
  induction words generalizing f s with
  | nil => exact ⟨rfl, rfl, fun w hw => .inl hw, fun h => h.resolve_right (by simp), fun h => .inl h,
      fun h => h.resolve_right (by simp)⟩
  | cons u rest ih =>
    have hstep : readWords i (u :: rest) (f, s) = readWords i rest (readWords i [u] (f, s)) := rfl
    rw [hstep]
    exact WordsRead.append (readWord_spec i u f s) (ih _ _)

/-! ### An access to a live slot (R177, R178; O21) -/

/-- The upsets that stand in a slot. -/
def State.upsetsOf (s : State) (i : Nat) : List Upset := s.memory.upsets.filter fun u => u.slot == i

/-- What an access to slot `i` finds in its words. -/
def State.slotRead (s : State) (i : Nat) : AccessFinding × State := readWords i (wrongWords (s.upsetsOf i)) (.clean, s)

section
variable {s : State} {i : Nat} {o : Order}

/-- An access to a live slot that holds no wrong bit. -/
theorem readSlot_untouched (h : s.upsetsOf i = []) : readSlot i s = s := by
  have hfilter : s.memory.upsets.filter (fun u => u.slot == i) = [] := h
  unfold readSlot
  split
  · rfl
  · split
    · rfl
    · rw [hfilter]
      rfl

/-- An access to a live slot with wrong bits: its words are read, corrected or used, and an uncorrectable one makes
it DAMAGED. -/
theorem readSlot_wrong (ho : s.order? i = some o) (live : o.state ≠ .damaged) (wrong : wrongWords (s.upsetsOf i) ≠ []) :
    readSlot i s =
      let read := s.slotRead i
      let garbled := (read.2.dropUpsets fun u => u.slot == i).garble i read.1.misread o
      if read.1.damaged = true then garbled.2.damageSlot i garbled.1 read.1.numberLost else garbled.2 := by
  unfold readSlot State.slotRead
  simp only [ho]
  rw [if_neg live]
  change wrongWords (s.memory.upsets.filter fun u => u.slot == i) ≠ [] at wrong
  show _ = _
  unfold State.upsetsOf
  split
  · next h => exact absurd h wrong
  · rfl

end

section
variable {s : State} {i : Nat} {word : RecordWord} {o : Order}

/-- The one wrong word of a slot whose upsets are all of that word. -/
theorem wrongWords_upsetsOf (same : ∀ u ∈ s.memory.upsets, u.slot = i ∧ u.word = word)
    (some : (s.memory.upsets.map Upset.bits).sum ≠ 0) :
    wrongWords (s.upsetsOf i) = [{ slot := i, word, bits := (s.memory.upsets.map Upset.bits).sum }] := by
  have hall : s.upsetsOf i = s.memory.upsets := List.filter_eq_self.mpr fun u hu => by simp [(same u hu).1]
  rw [hall]
  exact wrongWords_same same (by rintro h; simp [h] at some)

theorem dropUpsets_all (same : ∀ u ∈ s.memory.upsets, u.slot = i ∧ u.word = word) :
    s.memory.upsets.filter (fun u => !(u.slot == i)) = [] :=
  List.filter_eq_nil_iff.mpr fun u hu => by simp [(same u hu).1]

end

/-! ### What an access leaves in the slot -/

section
variable {s : State} {i : Nat} {o : Order}

theorem leaveHeldList_order? (s : State) (i k : Nat) : (s.leaveHeldList i).order? k = s.order? k := by
  by_cases h : i ∈ s.orders.heldList
  · rw [leaveHeldList_mem h]; rfl
  · rw [leaveHeldList_other h]

theorem leaveHeldList_memory (s : State) (i : Nat) : (s.leaveHeldList i).memory = s.memory := by
  by_cases h : i ∈ s.orders.heldList
  · rw [leaveHeldList_mem h]
  · rw [leaveHeldList_other h]

theorem damageSlot_order? (hi : i < s.orders.slots.length) (used : Order) (lost : Bool) :
    (s.damageSlot i used lost).order? i =
      some { used with state := .damaged, number := if lost = true then 0 else used.number } := by
  rw [State.damageSlot, leaveHeldList_order?]
  show ((s.orders.slots.set i _).getD i none) = _
  simp [List.getD_eq_getElem?_getD, hi]

/-- A live slot as an access uses it: its number and state stand unless their words are misread, and only a misread
state word can spell FREE (R177, log entry 5). -/
theorem garble_spec (ho : s.order? i = some o) (misread : List RecordWord) :
    (s.garble i misread o).2.memory = s.memory ∧ (s.garble i misread o).2.orders.slots.length = s.orders.slots.length
      ∧ (.number ∉ misread → (s.garble i misread o).1.number = o.number)
      ∧ (.state ∉ misread → (s.garble i misread o).1.state = o.state)
      ∧ ((s.garble i misread o).2.order? i = some (s.garble i misread o).1
        ∨ .state ∈ misread ∧ (s.garble i misread o).2.order? i = none) := by
  have hi := order?_lt ho
  cases misread with
  | nil => exact ⟨rfl, rfl, fun _ => rfl, fun _ => rfl, .inl ho⟩
  | cons w rest =>
    simp only [State.garble]
    refine ⟨rfl, List.length_set, fun h => ?_, fun h => ?_, ?_⟩
    · simp only [misreadOrder_number, List.contains_eq_mem, decide_eq_true_eq, if_neg h]
    · simp only [misreadOrder_state, List.contains_eq_mem, decide_eq_true_eq, if_neg h]
    · have hslot : ∀ x, ({ s.drawn with orders := { s.orders with slots := s.orders.slots.set i x } } : State).order? i
          = x := fun x => by
        show (s.orders.slots.set i x).getD i none = x
        simp [List.getD_eq_getElem?_getD, hi]
      refine (em (((w :: rest).contains .state && (Config.misread s.draws (some o)).isNone) = true)).symm.imp
        (fun h => (hslot _).trans (if_neg h)) fun h => ⟨?_, (hslot _).trans (if_pos h)⟩
      simpa using (Bool.and_eq_true_iff.mp h).1

end

/-- What an access to a live slot with wrong bits leaves. -/
theorem readSlot_wrong_order? {s : State} {i : Nat} {o : Order} (ho : s.order? i = some o) (live : o.state ≠ .damaged)
    (wrong : wrongWords (s.upsetsOf i) ≠ []) : ∃ used : Order,
      (.number ∉ (s.slotRead i).1.misread → used.number = o.number)
      ∧ (.state ∉ (s.slotRead i).1.misread → used.state = o.state)
      ∧ ((s.slotRead i).1.damaged = true → (readSlot i s).order? i = some { used with
          state := .damaged, number := if (s.slotRead i).1.numberLost = true then 0 else used.number })
      ∧ ((s.slotRead i).1.damaged = false → (readSlot i s).order? i = some used
        ∨ .state ∈ (s.slotRead i).1.misread ∧ (readSlot i s).order? i = none) := by
  have hread := readWords_spec i (wrongWords (s.upsetsOf i)) .clean s
  have hdropped : ((s.slotRead i).2.dropUpsets fun u => u.slot == i).order? i = some o := by
    show ((s.slotRead i).2.orders.slots.getD i none) = some o
    rw [State.slotRead, hread.orders]
    exact ho
  obtain ⟨-, hlen, hnumber, hstate, hslot⟩ := garble_spec hdropped (s.slotRead i).1.misread
  have hlt := order?_lt hdropped
  refine ⟨_, hnumber, hstate, fun hdamaged => ?_, fun hsound => ?_⟩
  · rw [readSlot_wrong ho live wrong]
    simp only [hdamaged, if_true]
    exact damageSlot_order? (by omega) _ _
  · rw [readSlot_wrong ho live wrong]
    simp only [hsound, Bool.false_eq_true, if_false]
    exact hslot

/-- An access finds no wrong bit left by an access before it. -/
theorem readSlot_upsetsOf {s : State} {i : Nat} {o : Order} (ho : s.order? i = some o) (live : o.state ≠ .damaged) :
    (readSlot i s).upsetsOf i = [] := by
  by_cases wrong : wrongWords (s.upsetsOf i) = []
  · rw [readSlot_untouched (wrongWords_eq_nil wrong), wrongWords_eq_nil wrong]
  · have hread := readWords_spec i (wrongWords (s.upsetsOf i)) .clean s
    have hdropped : ((s.slotRead i).2.dropUpsets fun u => u.slot == i).order? i = some o := by
      show ((s.slotRead i).2.orders.slots.getD i none) = some o
      rw [State.slotRead, hread.orders]
      exact ho
    have hmem := (garble_spec hdropped (s.slotRead i).1.misread).1
    rw [readSlot_wrong ho live wrong]
    have hnone : ∀ t : State, t.memory = ((s.slotRead i).2.dropUpsets fun u => u.slot == i).memory →
        t.upsetsOf i = [] := fun t ht => by
      show t.memory.upsets.filter _ = []
      rw [ht]
      show ((s.slotRead i).2.memory.upsets.filter _).filter _ = []
      rw [List.filter_filter]
      exact List.filter_eq_nil_iff.mpr fun u _ => by simp
    dsimp only
    split
    · refine hnone _ (Eq.trans ?_ hmem)
      rw [State.damageSlot, leaveHeldList_memory]
      rfl
    · exact hnone _ hmem

/-! ### O21 -/

theorem wrongBits_upsetsOf (s : State) (i : Nat) (word : RecordWord) :
    wrongBits (s.upsetsOf i) i word = wrongBits s.memory.upsets i word := by
  unfold wrongBits State.upsetsOf
  rw [List.filter_filter]
  congr 2
  refine List.filter_congr fun u _ => ?_
  cases u.slot == i <;> simp

theorem addUpset_slot {i : Nat} {u : Upset} {us : List Upset} (hu : u.slot = i) (h : ∀ v ∈ us, v.slot = i) :
    ∀ v ∈ addUpset u us, v.slot = i := by
  induction us with
  | nil => simpa [addUpset] using hu
  | cons x rest ih =>
    obtain ⟨hx, hrest⟩ := List.forall_mem_cons.mp h
    unfold addUpset
    split
    · exact List.forall_mem_cons.mpr ⟨hx, hrest⟩
    · exact List.forall_mem_cons.mpr ⟨hx, ih hrest⟩

theorem wrongWords_slot {i : Nat} {us : List Upset} (h : ∀ u ∈ us, u.slot = i) : ∀ v ∈ wrongWords us, v.slot = i := by
  have hfold : ∀ (us words : List Upset), (∀ u ∈ us, u.slot = i) → (∀ v ∈ words, v.slot = i) →
      ∀ v ∈ us.foldl (fun words u => addUpset u words) words, v.slot = i := by
    intro us
    induction us with
    | nil => exact fun _ _ hw => hw
    | cons u us ih =>
      intro words hus hw
      obtain ⟨hu, hrest⟩ := List.forall_mem_cons.mp hus
      exact ih _ hrest (addUpset_slot hu hw)
  exact hfold us [] h (by simp)

section
variable {s : State} {i : Nat}

/-- A wrong word of the slot holds all the wrong bits of that word. -/
theorem bits_of_wrongWord {u : Upset} (hu : u ∈ wrongWords (s.upsetsOf i)) :
    u.bits = wrongBits s.memory.upsets i u.word := by
  have hslot : u.slot = i := wrongWords_slot (fun v hv => by simpa using (List.mem_filter.mp hv).2) u hu
  rw [← wrongBits_upsetsOf, ← wrongBits_wrongWords, ← wrongBits_mem (wrongWords_nodup _) hu, hslot]

/-- A word with wrong bits is one of the wrong words read. -/
theorem wrongWord_of_bits {word : RecordWord} (h : wrongBits s.memory.upsets i word ≠ 0) :
    ∃ u ∈ wrongWords (s.upsetsOf i), u.word = word ∧ u.bits = wrongBits s.memory.upsets i word := by
  rw [← wrongBits_upsetsOf, ← wrongBits_wrongWords] at h
  obtain ⟨u, hu, -, hword⟩ := exists_of_wrongBits h
  exact ⟨u, hu, hword, by rw [bits_of_wrongWord hu, hword]⟩

theorem not_misread {word : RecordWord} (h : wrongBits s.memory.upsets i word ≤ 2) :
    word ∉ (s.slotRead i).1.misread := by
  intro hmem
  rcases (readWords_spec i _ .clean s).misread word hmem with hclean | ⟨u, hu, hword, hwide⟩
  · cases hclean
  · rw [bits_of_wrongWord hu, hword] at hwide
    omega

end

/-- One wrong bit is corrected and counted (R177). -/
theorem readSlot_oneBit {s : State} {i : Nat} {o : Order} {word : RecordWord} (ho : s.order? i = some o)
    (live : o.state ≠ .damaged) (same : ∀ u ∈ s.memory.upsets, u.slot = i ∧ u.word = word)
    (one : (s.memory.upsets.map Upset.bits).sum = 1) :
    readSlot i s = (s.countCorrection i).dropUpsets fun u => u.slot == i := by
  have hwords := wrongWords_upsetsOf same (by omega)
  have hread : s.slotRead i = (.clean, s.countCorrection i) := by
    rw [State.slotRead, hwords, one]
    rfl
  rw [readSlot_wrong ho live (by simp [hwords]), hread]
  rfl

/-- Two wrong bits of one word damage the slot (R178). -/
theorem readSlot_twoBits {s : State} {i : Nat} {o : Order} {word : RecordWord} (ho : s.order? i = some o)
    (live : o.state ≠ .damaged) (same : ∀ u ∈ s.memory.upsets, u.slot = i ∧ u.word = word)
    (two : (s.memory.upsets.map Upset.bits).sum = 2) :
    readSlot i s = (s.dropUpsets fun u => u.slot == i).damageSlot i o (decide (word = .number)) := by
  have hwords := wrongWords_upsetsOf same (by omega)
  have hread : s.slotRead i = ({ AccessFinding.clean with damaged := true, numberLost := decide (word = .number) }, s) := by
    rw [State.slotRead, hwords, two]
    rfl
  rw [readSlot_wrong ho live (by simp [hwords]), hread]
  rfl

/-- Settles O21. -/
theorem wrongBitsAreCorrectedOrDamage : Obligations.WrongBitsAreCorrectedOrDamage := by
  refine ⟨fun i o word s ho live same one => ?_, fun i o word s ho live same two free => ?_, fun i o s ho live => ?_,
    fun i s => ?_⟩
  · intro n s1
    have hdrop := dropUpsets_all same
    rw [readSlot_oneBit ho live same one, State.countCorrection]
    by_cases hfull : s.memory.corrections < 65535
    · have hn : n ≤ 65535 := hfull
      have hs1 : s1 = { s with memory := { s.memory with upsets := [], corrections := n } } := by
        simp only [s1, if_pos hn]
      rw [if_pos hfull, hs1]
      by_cases hmultiple : n % s.memory.threshold = 0
      · rw [if_pos hmultiple, if_pos ⟨hn, hmultiple⟩]
        simp only [State.dropUpsets, State.raise, hdrop]
        rfl
      · rw [if_neg hmultiple, if_neg fun h => hmultiple h.2]
        simp only [State.dropUpsets, hdrop]
        rfl
    · have hn : ¬n ≤ 65535 := hfull
      have hs1 : s1 = { s with memory := { s.memory with upsets := [] } } := by
        simp only [s1, if_neg hn]
      rw [if_neg hfull, if_neg fun h => hn h.1, hs1]
      simp only [State.dropUpsets, hdrop]
  · have hfree : i ∉ ((((s.dropUpsets fun u => u.slot == i).setOrder i { o with
        state := .damaged, number := if decide (word = .number) = true then 0 else o.number }).raise
          .recordDamaged i).orders.heldList) := free
    rw [readSlot_twoBits ho live same two, State.damageSlot, leaveHeldList_other hfree]
    simp only [State.dropUpsets, dropUpsets_all same, decide_eq_true_eq]
    rfl
  · intro wrong t
    have hwrong : ∀ word, wrong word = wrongBits s.memory.upsets i word := fun _ => rfl
    by_cases hnil : wrongWords (s.upsetsOf i) = []
    · have ht : t.order? i = some o := by
        show (readSlot i s).order? i = _
        rw [readSlot_untouched (wrongWords_eq_nil hnil), ho]
      have hzero : ∀ word, wrong word = 0 := fun word => by
        by_contra hne
        obtain ⟨u, hu, -⟩ := wrongWord_of_bits hne
        rw [hnil] at hu
        cases hu
      refine ⟨fun _ => by rw [ht]; rfl, ?_, fun o1 h1 => ?_⟩
      · rintro ⟨word, htwo⟩
        exact absurd (hzero word) (by omega)
      · rw [ht] at h1
        cases h1
        exact ⟨fun _ => .inl rfl, fun _ => rfl, fun htwo => absurd (hzero .number) (by omega)⟩
    · obtain ⟨used, hnumber, hstate, hdamaged, hsound⟩ := readSlot_wrong_order? ho live hnil
      have hread := readWords_spec i (wrongWords (s.upsetsOf i)) .clean s
      refine ⟨fun hle => ?_, ?_, fun o1 h1 => ?_⟩
      · cases hd : (s.slotRead i).1.damaged with
        | true => rw [show t.order? i = _ from hdamaged hd]; rfl
        | false =>
          rcases hsound hd with h | ⟨hmis, -⟩
          · rw [show t.order? i = _ from h]; rfl
          · exact absurd hmis (not_misread (by rw [← hwrong]; omega))
      · rintro ⟨word, htwo⟩
        obtain ⟨u, hu, hword, hbits⟩ := wrongWord_of_bits (s := s) (i := i) (word := word) (by rw [← hwrong]; omega)
        exact ⟨_, hdamaged (hread.damaged (.inr ⟨u, hu, by rw [hbits, ← hwrong, htwo]⟩)), rfl⟩
      · have lostOf : wrong .number = 2 → (s.slotRead i).1.damaged = true ∧ (s.slotRead i).1.numberLost = true := by
          intro htwo
          obtain ⟨u, hu, hword, hbits⟩ := wrongWord_of_bits (s := s) (i := i) (word := .number) (by rw [← hwrong]; omega)
          rw [← hwrong, htwo] at hbits
          exact ⟨hread.damaged (.inr ⟨u, hu, hbits⟩), hread.losing (.inr ⟨u, hu, hword, hbits⟩)⟩
        have keptOf : wrong .number ≤ 1 → (s.slotRead i).1.numberLost = false := by
          intro hle
          by_contra hlost
          rcases hread.lost (Bool.not_eq_false _ ▸ hlost) with h | ⟨u, hu, hword, hbits⟩
          · cases h
          · rw [bits_of_wrongWord hu, hword, ← hwrong] at hbits
            omega
        cases hd : (s.slotRead i).1.damaged with
        | true =>
          have h := (hdamaged hd).symm.trans h1
          cases h
          refine ⟨fun _ => .inr rfl, fun hle => ?_, fun htwo => if_pos (lostOf htwo).2⟩
          exact (if_neg (by simp [keptOf hle])).trans (hnumber (not_misread (by rw [← hwrong]; omega)))
        | false =>
          rcases hsound hd with h | ⟨-, h⟩
          · have h := h.symm.trans h1
            cases h
            exact ⟨fun hle => .inl (hstate (not_misread (by rw [← hwrong]; omega))),
              fun hle => hnumber (not_misread (by rw [← hwrong]; omega)),
              fun htwo => by rw [(lostOf htwo).1] at hd; cases hd⟩
          · cases h.symm.trans h1
  · cases ho : s.order? i with
    | none =>
      have hsame : readSlot i s = s := by simp only [readSlot, ho]
      rw [hsame, hsame]
    | some o =>
      by_cases live : o.state = .damaged
      · have hsame : readSlot i s = s := by
          simp only [readSlot, ho]
          exact if_pos live
        rw [hsame, hsame]
      · exact readSlot_untouched (readSlot_upsetsOf ho live)

end Sys2Proof.Machine
end

section
/-! The requests that only read, item by item (R28, R52, R93, R110, R127, R154, R158; O44). -/

namespace Sys2Proof.Machine

/-! ### A list cut to the bytes left of a body (R158) -/

/-- How many entries of a list fit: those up to which the entries together keep to the room. -/
def fitCount (room : Nat) (entries : List (List Byte)) : Nat :=
  (List.range entries.length).countP fun k => decide (((entries.take (k + 1)).map List.length).sum ≤ room)

theorem fitCount_cons (room : Nat) (e : List Byte) (rest : List (List Byte)) :
    fitCount room (e :: rest) = if e.length ≤ room then fitCount (room - e.length) rest + 1 else 0 := by
  have hsum : ∀ k, (((e :: rest).take (k + 1)).map List.length).sum = e.length + ((rest.take k).map List.length).sum :=
    fun k => by simp
  unfold fitCount
  rw [List.length_cons, List.range_succ_eq_map, List.countP_cons, List.countP_map]
  by_cases h : e.length ≤ room
  · rw [if_pos h]
    congr 1
    · refine List.countP_congr fun k _ => ?_
      simp only [Function.comp, hsum, decide_eq_true_eq, Nat.succ_eq_add_one]
      omega
    · simp [h]
  · rw [if_neg h]
    have hnone : ∀ k, ¬(((e :: rest).take (k + 1)).map List.length).sum ≤ room := fun k => by rw [hsum]; omega
    simp only [hnone, decide_false, Bool.false_eq_true, if_false, Nat.add_zero]
    simp

theorem fitting_eq (room : Nat) (entries : List (List Byte)) :
    fitting room entries = entries.take (fitCount room entries) := by
  induction entries generalizing room with
  | nil => rfl
  | cons e rest ih =>
    rw [fitCount_cons, fitting]
    split
    · rw [List.take_succ_cons, ih]
    · rfl

theorem fitCount_le (room : Nat) (entries : List (List Byte)) : fitCount room entries ≤ entries.length :=
  List.countP_le_length.trans (Nat.le_of_eq List.length_range)

/-- A list behind a summary of at most 238 bytes, cut to the entries that keep the body within 240 (R158). -/
theorem itemCutList_eq {used : Nat} (small : used ≤ 238) (entries : List (List Byte)) (more : Bool) :
    itemCutList used entries more =
      let fits := (List.range entries.length).countP fun k =>
        decide (used + 2 + ((entries.take (k + 1)).map List.length).sum ≤ 240)
      item8 fits ++ (entries.take fits).flatten ++ itemFlag (more || decide (fits < entries.length)) := by
  have hfits : fitCount (Config.bodyLimit - used - 2) entries = (List.range entries.length).countP fun k =>
      decide (used + 2 + ((entries.take (k + 1)).map List.length).sum ≤ 240) := by
    refine List.countP_congr fun k _ => ?_
    simp only [Config.bodyLimit, decide_eq_true_eq]
    omega
  have hlen : (entries.take (fitCount (Config.bodyLimit - used - 2) entries)).length =
      fitCount (Config.bodyLimit - used - 2) entries := by
    rw [List.length_take, Nat.min_eq_left (fitCount_le _ _)]
  rw [hfits] at hlen
  simp only [itemCutList, fitting_eq, hfits, hlen]

/-- Settles O44. -/
theorem readsChangeNothing : Obligations.ReadsChangeNothing := by
  intro h s calm general cut exposure unit engine train calibration queue
  have hengine : engineItems s = engine (secondsLeft s) := by
    dsimp only [engineItems, engine]
    iterate 7 refine congrArg₂ (· ++ ·) ?_ rfl
    refine congrArg₂ (· ++ ·) ?_ (by cases s.engine.active <;> rfl)
    iterate 3 refine congrArg₂ (· ++ ·) ?_ rfl
    refine congrArg₂ (· ++ ·) (congrArg₂ (· ++ ·) ?_ (by cases s.engine.buffer1 <;> rfl))
      (by cases s.engine.buffer2 <;> rfl)
    refine congrArg₂ (· ++ ·) ?_ (congrArg item16 ?_)
    · iterate 5 refine congrArg₂ (· ++ ·) ?_ rfl
      exact congrArg₂ (· ++ ·) rfl (congrArg item8 (by rcases s.engine.phase with _ | phase; rfl; cases phase <;> rfl))
    · change _ = match s.inEngine, s.engine.phase with
        | some (_, u), some .lead => u.lead
        | some (_, u), some .topBorder => u.border
        | some (_, u), some .image => if u.kind = UnitKind.strip then 800 else u.print - 2 * u.border
        | some (_, u), some .bottomBorder => u.border
        | some (_, u), some .mark => u.mark
        | _, _ => 0
      rcases s.inEngine with _ | ⟨id, u⟩
      · rfl
      · rcases s.engine.phase with _ | phase
        · rfl
        · cases phase <;> rfl
  have htrain : ∀ place, trainItems s place = train place := by
    intro place
    have hentry : ∀ e k, trainItem s k e = ((s.unit? e.unit).map fun u =>
        item8 k ++ unit e.unit u ++ itemFlag u.spoiled ++ itemFlag u.void ++ itemWord e.mark
          ++ itemOption itemWord (e.figures.map fun f => f.expected)
          ++ itemOption item8 (e.figures.map fun f => f.window)
          ++ itemOption itemWord (e.figures.map fun f => f.expected + BitVec.ofNat 32 f.window - s.transit.path)
          ++ (u.exposure.map exposure).getD []).getD [] := fun e k => by
      unfold trainItem
      cases s.unit? e.unit with
      | none => rfl
      | some u => simp only [itemUnit, unit, List.append_assoc]; rfl
    simp only [trainItems, train, hentry]
    rw [itemCutList_eq (by simp [itemWord, item32, item16, item8, itemFlag])]
    rfl
  have hcal : ∀ surface, calItems s surface = calibration surface := by
    intro surface
    have hknown : ∀ {α : Type} (item : α → List Byte) (a : α), itemOption item (s.store.calibration.whenGood a) =
        if s.store.calibration.bad = true then item8 0 else item8 1 ++ item a := fun item a => by
      unfold Sheet.whenGood
      split <;> rfl
    have hstrict : ∀ u, s.store.calibration.strict u = decide (s.store.calibration.value (48 + u) ≠ 0) := fun u => by
      rw [Bool.eq_iff_iff]
      simp [Sheet.strict]
    have hstrip : itemStrip s = (match s.cal.strip with
        | .none => item8 0 ++ item8 0 ++ item8 0 ++ item8 0 ++ item8 0 ++ item8 0 ++ item8 0 ++ item8 0
        | .out u id abandoned =>
          item8 1 ++ item8 1 ++ item8 u ++ item8 1 ++ item16 id
            ++ itemOption (fun (u : PrintUnit) => item8 u.place.code) (s.unit? id)
            ++ item8 1 ++ itemFlag abandoned ++ (if abandoned = true then item8 1 ++ item8 0 else item8 0)
            ++ item8 0 ++ item8 0
        | .reading u _ conversion values =>
          item8 2 ++ item8 1 ++ item8 u ++ item8 0 ++ item8 0 ++ item8 0 ++ item8 0
            ++ item8 1 ++ item8 conversion ++ itemList8 item16 values
        | .settling u values =>
          item8 3 ++ item8 1 ++ item8 u ++ item8 0 ++ item8 0 ++ item8 0 ++ item8 0 ++ item8 0
            ++ itemList8 item16 values) := by
      unfold itemStrip
      cases s.cal.strip with
      | none => rfl
      | out u id abandoned =>
        simp only [State.stripPlace]
        cases s.unit? id <;> cases abandoned <;> rfl
      | reading => rfl
      | settling => rfl
    dsimp only [calItems, calibration]
    refine congrArg₂ (· ++ ·) ?_ hstrip
    simp only [itemSurface, itemFigures, hknown, hstrict, State.strictHold]
    rfl
  have hqueue : ∀ start order wanted, queuePositions s start order =
      ((s.queue.ids.zipIdx 1).filter fun (id, position) => decide (start ≤ position) && wanted id).map
        (fun (id, position) => (position, id)) → queueItems s start order = queue start wanted := by
    intro start order wanted hfound
    have hentry : ∀ id position, queueItem s position id = ((s.unit? id).map fun u =>
        item16 position ++ item8 (if id ∈ s.queue.strip then 0 else if id ∈ s.queue.rush then 1 else 2) ++ unit id u
          ++ item8 u.surface ++ itemOption item16 u.width ++ item16 (u.lead + u.print + u.mark)).getD [] :=
      fun id position => by
        unfold queueItem
        cases s.unit? id with
        | none => rfl
        | some u => simp only [unit, List.append_assoc, List.contains_iff_mem]; rfl
    have hflight : s.inFlight.length = s.transit.train.length + s.engine.current.toList.length := by
      simp [State.inFlight]
    have hoption : ∀ {α : Type} (item : α → List Byte) (a : Option α) (n : Nat), (∀ a, (item a).length ≤ n) →
        (itemOption item a).length ≤ n + 1 := fun item a n hn => by
      cases a with
      | none => simp [itemOption, item8]
      | some a => have := hn a; simp [itemOption, item8]; omega
    have hhead := hoption item16 (s.orders.heldList.head?.bind fun i => (s.order? i).map Order.number) 2 (by simp [item16])
    have hcause := hoption item8 (s.queue.heldCause.map HeldCause.code) 1 (by simp [item8])
    have hcode : itemOption item8 (s.queue.heldCause.map HeldCause.code) =
        itemOption (fun c => item8 c.code) s.queue.heldCause := by
      cases s.queue.heldCause <;> rfl
    rw [hcode] at hcause
    simp only [queueItems, hfound, queue, State.unitsInUse, hflight, hcode, ← List.map_take, List.map_map, List.length_map]
    rw [itemCutList_eq (by simp only [List.length_append, item16, item8, List.length_cons, List.length_nil] at *; omega)]
    have hitems : ∀ found : List (Nat × Nat), found.map
        ((fun (position, id) => queueItem s position id) ∘ fun (id, position) => (position, id)) =
          found.map fun (id, position) => ((s.unit? id).map fun u =>
            item16 position ++ item8 (if id ∈ s.queue.strip then 0 else if id ∈ s.queue.rush then 1 else 2) ++ unit id u
              ++ item8 u.surface ++ itemOption item16 u.width ++ item16 (u.lead + u.print + u.mark)).getD [] :=
      fun found => List.map_congr_left fun a _ => hentry a.1 a.2
    rw [hitems]
    rfl
  refine ⟨exec_unchanged (c := .readClock h) rfl calm rfl, exec_unchanged (c := .readBins h) rfl calm rfl, fun hnone => ?_,
    fun time hsome => ?_, fun place surface start number => ⟨fun hbad => ?_, fun hbad => ?_, fun hbad => ?_⟩, fun idle =>
      ⟨fun place hlow hhigh => ?_, fun surface hsurface => ?_, fun start hlow hhigh clean => ⟨?_, fun n i o named => ?_⟩⟩⟩
  · have hdraw : decideReadEngine s = (.answer .ok (engine none), s) := by
      have hleft : secondsLeft s = none := by rw [secondsLeft, hnone]; rfl
      rw [decideReadEngine, hengine, hleft, hnone]
      rfl
    exact exec_unchanged (c := .readEngine h) rfl calm hdraw
  · refine ⟨min (Config.switchSecondsLeft s.draws time) time, Nat.min_le_right _ _, ?_⟩
    have hdraw : decideReadEngine s =
        (.answer .ok (engine (some (min (Config.switchSecondsLeft s.draws time) time))), s.drawn) := by
      have hleft : secondsLeft s = some (min (Config.switchSecondsLeft s.draws time) time) := by
        rw [secondsLeft, hsome]; rfl
      rw [decideReadEngine, hengine, hleft, hsome]
      rfl
    exact exec_answer (c := .readEngine h) rfl calm.accepts hdraw calm.noSignal calm.noTrial
  · exact exec_unchanged (c := .readTrain h place) rfl calm (if_pos hbad)
  · exact exec_unchanged (c := .readCal h surface) rfl calm (if_pos hbad)
  · exact exec_unchanged (c := .readQueue h start number) rfl calm (if_pos hbad)
  · refine exec_unchanged (c := .readTrain h place) rfl calm ?_
    show decideReadTrain place s = _
    rw [decideReadTrain, if_neg (by omega), if_neg (by simp [idle]), htrain]
    rfl
  · refine exec_unchanged (c := .readCal h surface) rfl calm ?_
    show decideReadCal surface s = _
    rw [decideReadCal, if_neg (by omega), if_neg (by simp [idle]), hcal]
    rfl
  · refine exec_unchanged (c := .readQueue h start none) rfl calm ?_
    show decideReadQueue start none s = _
    rw [decideReadQueue, if_neg (by omega)]
    show (if s.cycleRuns = true then _ else _) = _
    rw [if_neg (by simp [idle]), answerQueue_clean clean, hqueue start none (fun _ => true) (by rw [queuePositions, List.filter_map]; rfl)]
    rfl
  · refine exec_unchanged (c := .readQueue h start (some n)) rfl calm ?_
    show decideReadQueue start (some n) s = _
    rw [decideReadQueue, if_neg (by omega)]
    simp only [lookUp_plain (touch := false) clean named (.inl rfl)]
    rw [if_neg (by simp [idle]), answerQueue_clean clean,
      hqueue start (some (i, o.number)) (fun id => (s.unit? id).any fun u => u.isOf i o.number)
        (by rw [queuePositions, List.filter_map]; rfl)]
    rfl

end Sys2Proof.Machine
end

section
/-! The start of a granted unit (R71, R75, R76, R79, R92; O45). -/

namespace Sys2Proof.Machine

/-! ### A spoil report and the engine (R38, R79) -/

section
variable {s : State} {id i : Nat} {u v : PrintUnit} {o : Order}

theorem spoilReprinted_unit? (hu : s.unit? id = some v) : (spoilReprinted i o u s).unit? id = some v := by
  cases hfind : s.queue.pool.findIdx? Option.isNone with
  | some made =>
    rw [spoilReprinted_eq hfind, unit?_eq]
    have hne : id ≠ made := by
      rintro rfl
      rw [unit?_eq, (findIdx?_free.mp hfind).2.1] at hu
      cases hu
    exact (recordOf_set_ne _ _ hne).trans hu
  | none =>
    simp only [spoilReprinted, State.makeUnit, hfind, joinHead_eq]
    exact hu

theorem spoilMissing_unit? (id : Nat) : (spoilMissing i o u s).unit? id = s.unit? id := by
  unfold spoilMissing
  cases s.figures? i <;> rfl

theorem stripSpoiled_unit? (k : Nat) : (stripSpoiled id s).unit? k = s.unit? k := by
  unfold stripSpoiled
  split
  · split <;> rfl
  · rfl

/-- A unit whose spoil has been reported is SPOILED (R38). -/
theorem spoilReport_spoiled (clean : CleanStorage s) (hu : s.unit? id = some u) :
    ∃ v, (spoilReport id s).unit? id = some v ∧ v.spoiled = true := by
  have hmark : (s.markSpoiled id u).unit? id = some { u with spoiled := true } := recordOf_set_self (recordOf_lt hu) _
  cases fresh : u.spoiled with
  | true =>
    have hsame : spoilReport id s = s := by simp only [spoilReport, hu, fresh, if_true]
    exact ⟨u, by rw [hsame, hu], fresh⟩
  | false =>
    refine ⟨_, Eq.trans ?_ hmark, rfl⟩
    by_cases strip : u.kind = .strip
    · rw [spoilReport_strip hu fresh strip, stripSpoiled_unit?]
    · by_cases hnone : u.void = true ∨ ∀ o, s.soundOrder u = some o → o.state.spoilsCount = false
      · rw [spoilReport_uncounted clean hu fresh strip hnone]
      · simp only [not_or, not_forall, Bool.not_eq_true, Bool.not_eq_false] at hnone
        obtain ⟨valid, o, ho, counts⟩ := hnone
        obtain ⟨i, hslot, -⟩ := soundOrder_some.mp ho
        rw [spoilReport_counted clean hu fresh strip valid hslot ho counts]
        split
        · rw [hmark]; exact spoilReprinted_unit? hmark
        · exact spoilMissing_unit? id

/-- The spoil report of a unit reads and changes nothing of the engine. -/
theorem spoilReport_mapEngine (clean : CleanStorage s) (id : Nat) (f : Engine → Engine) :
    spoilReport id (s.mapEngine f) = (spoilReport id s).mapEngine f := by
  have hclean : CleanStorage (s.mapEngine f) := clean
  cases hu : s.unit? id with
  | none => simp only [spoilReport, show (s.mapEngine f).unit? id = none from hu, hu]
  | some u =>
    have hu' : (s.mapEngine f).unit? id = some u := hu
    cases fresh : u.spoiled with
    | true => simp only [spoilReport, hu', hu, fresh, if_true]
    | false =>
      by_cases strip : u.kind = .strip
      · rw [spoilReport_strip hu fresh strip, spoilReport_strip hu' fresh strip]
        have hcal : ((s.mapEngine f).markSpoiled id u).cal = (s.markSpoiled id u).cal := rfl
        simp only [stripSpoiled, hcal]
        cases (s.markSpoiled id u).cal.strip with
        | out surface unit abandoned =>
          dsimp only
          split <;> rfl
        | none | reading | settling => rfl
      · by_cases hnone : u.void = true ∨ ∀ o, s.soundOrder u = some o → o.state.spoilsCount = false
        · rw [spoilReport_uncounted clean hu fresh strip hnone, spoilReport_uncounted hclean hu' fresh strip hnone]
          rfl
        · simp only [not_or, not_forall, Bool.not_eq_true, Bool.not_eq_false] at hnone
          obtain ⟨valid, o, ho, counts⟩ := hnone
          obtain ⟨i, hslot, -⟩ := soundOrder_some.mp ho
          rw [spoilReport_counted clean hu fresh strip valid hslot ho counts,
            spoilReport_counted hclean hu' fresh strip valid hslot ho counts]
          split
          · have hpool : ((s.mapEngine f).markSpoiled id u).queue = (s.markSpoiled id u).queue := rfl
            simp only [spoilReprinted, State.makeUnit, hpool, joinHead_eq]
            cases (s.markSpoiled id u).queue.pool.findIdx? Option.isNone <;> rfl
          · have hfigures : ((s.mapEngine f).markSpoiled id u).figures? i = (s.markSpoiled id u).figures? i := rfl
            simp only [spoilMissing, hfigures]
            cases (s.markSpoiled id u).figures? i <;> rfl

end

/-! ### The first phase with lines (R76, R87, R92) -/

/-- The engine after a unit has entered a phase that spoils nothing: the head of its first line, and the buffers of
an unspoiled print's IMAGE (R76, R87). -/
def Engine.entering (u : PrintUnit) (next : Phase) (e : Engine) : Engine :=
  match next with
  | .lead => { e with head := .unlit }
  | .mark => { e with head := markTone }
  | .image =>
    if u.spoiled = true then { e with head := borderTone }
    else if u.kind = .strip then { e with head := .unlit }
    else { e with
      buffer1 := .requested 0, firstLineTimer := true, head := .unlit
      buffer2 := if 1 < u.print - 2 * u.border then .requested 1 else .empty }
  | .topBorder | .bottomBorder => { e with head := borderTone }

/-- The engine after an unspoiled unit has been spoiled at its first lit phase (R92). -/
def Engine.dipping (e : Engine) : Engine :=
  { e with buffer1 := .empty, buffer2 := .empty, firstLineTimer := false, head := borderTone }

/-- The unit is spoiled by LAMP_LOW at its entry into a phase (R92). -/
def Dips (s : State) (u : PrintUnit) (next : Phase) : Prop :=
  (next = .topBorder ∨ (next = .image ∧ u.border = 0)) ∧ s.engine.holds.lampLow = true ∧ u.spoiled = false

/-- The state in which a unit stands at line 0 of a phase. -/
def State.atPhase (s : State) (next : Phase) : State := s.mapEngine fun e => { e with phase := some next, line := 0 }

section
variable {s : State} {id : Nat} {u : PrintUnit} {next : Phase}

theorem firstLit_iff (u : PrintUnit) (phase : Phase) :
    u.firstLit phase = true ↔ phase = .topBorder ∨ (phase = .image ∧ u.border = 0) := by
  simp [PrintUnit.firstLit]

theorem inEngine_eq (current : s.engine.current = some id) (hu : s.unit? id = some u) : s.inEngine = some (id, u) := by
  simp [State.inEngine, current, hu]

/-- A unit that is spoiled already is not spoiled again (R79). -/
theorem engineSpoil_spoiled (hin : s.inEngine = some (id, u)) (hu : s.unit? id = some u) (spoiled : u.spoiled = true) :
    engineSpoil s = s := by
  have hreport : spoilReport id s = s := by simp only [spoilReport, hu, spoiled, if_true]
  simp only [engineSpoil, hin, hreport, spoiled, if_true]

/-- The first spoil of the unit in the engine (R79). -/
theorem engineSpoil_fresh (hin : s.inEngine = some (id, u)) (fresh : u.spoiled = false) :
    engineSpoil s = (spoilReport id s).mapEngine fun e => { e with
      buffer1 := .empty, buffer2 := .empty
      head := if e.firstLineTimer then borderTone else e.head
      firstLineTimer := false } := by
  simp only [engineSpoil, hin, fresh, Bool.false_eq_true, if_false]

/-- The unit's entry into a phase after the spoil that LAMP_LOW may make of it. -/
def enterSpoiled (u : PrintUnit) (phase : Phase) (s : State) : State :=
  if phase = .image ∧ u.kind ≠ .strip ∧ (s.inEngine.map fun p => p.2.spoiled).getD true = false then
    s.mapEngine fun e => { e with
      buffer1 := .requested 0
      buffer2 := if 1 < u.imageLines then .requested 1 else .empty
      firstLineTimer := true, head := .unlit }
  else beginLine phase 0 s

theorem enterPhase_eq (hin : (s.atPhase next).inEngine = some (id, u)) :
    enterPhase next s = enterSpoiled u next
      (if (u.firstLit next && s.engine.holds.lampLow) = true then engineSpoil (s.atPhase next) else s.atPhase next) := by
  have hin' : (s.mapEngine fun e => { e with phase := some next, line := 0 }).inEngine = some (id, u) := hin
  simp only [enterPhase, hin']
  rfl

/-- The first line of a phase in which nothing waits for an image line. -/
theorem beginLine_first (hin : s.inEngine = some (id, u)) (hline : s.engine.line = 0)
    (border : next = .image → u.spoiled = true ∨ u.kind = .strip) :
    beginLine next 0 s = s.mapEngine (Engine.entering u next) := by
  have hzero : (s.mapEngine fun e => { e with line := 0 }) = s := by
    show { s with engine := { s.engine with line := 0 } } = s
    rw [← hline]
  unfold beginLine
  rw [hzero]
  cases next with
  | lead | topBorder | bottomBorder | mark => rfl
  | image =>
    simp only [hin]
    by_cases spoiled : u.spoiled = true
    · rw [if_pos spoiled]
      exact congrArg (fun engine => { s with engine }) (if_pos spoiled).symm
    · have strip := (border rfl).resolve_left spoiled
      rw [if_neg spoiled, if_pos strip, if_pos (by decide)]
      exact congrArg (fun engine => { s with engine }) ((if_neg spoiled).trans (if_pos strip)).symm

/-- A unit enters a phase that spoils nothing (R76, R87). -/
theorem enterPhase_entering (current : s.engine.current = some id) (hu : s.unit? id = some u)
    (sound : ¬Dips s u next) : enterPhase next s = (s.atPhase next).mapEngine (Engine.entering u next) := by
  have hin := inEngine_eq (s := s.atPhase next) current hu
  have hspoil : (if (u.firstLit next && s.engine.holds.lampLow) = true then engineSpoil (s.atPhase next)
      else s.atPhase next) = s.atPhase next := by
    split
    · next h =>
      rw [Bool.and_eq_true_iff, firstLit_iff] at h
      refine engineSpoil_spoiled hin hu ?_
      by_contra hfresh
      exact sound ⟨h.1, h.2, by simpa using hfresh⟩
    · rfl
  rw [enterPhase_eq hin, hspoil, enterSpoiled, hin]
  by_cases hprint : next = .image ∧ u.kind ≠ .strip ∧ u.spoiled = false
  · obtain ⟨rfl, hkind, hfresh⟩ := hprint
    have hlines : u.imageLines = u.print - 2 * u.border := if_neg hkind
    rw [if_pos ⟨rfl, hkind, hfresh⟩, hlines]
    exact congrArg (fun engine => { s.atPhase .image with engine })
      ((if_neg (c := u.spoiled = true) (by simp [hfresh])).trans (if_neg hkind)).symm
  · refine (if_neg hprint).trans ?_
    refine beginLine_first hin rfl fun himage => ?_
    by_contra hneither
    rw [not_or] at hneither
    exact hprint ⟨himage, hneither.2, by simpa using hneither.1⟩

/-- Under LAMP_LOW an unspoiled unit is spoiled at its first lit phase and exposed at border tone (R92). -/
theorem enterPhase_dips (clean : CleanStorage s) (current : s.engine.current = some id)
    (hu : s.unit? id = some u) (dips : Dips s u next) :
    enterPhase next s = (spoilReport id (s.atPhase next)).mapEngine Engine.dipping := by
  obtain ⟨hlit, hlamp, hfresh⟩ := dips
  have hclean : CleanStorage (s.atPhase next) := clean
  have hengine := (Leaves.refl (s.atPhase next)).after_spoilReport (id := id) |>.engine
  obtain ⟨v, hv, hspoiled⟩ := spoilReport_spoiled (s := s.atPhase next) hclean hu
  have hin := inEngine_eq (s := s.atPhase next) current hu
  rw [enterPhase_eq hin, if_pos (Bool.and_eq_true_iff.mpr ⟨(firstLit_iff u next).mpr hlit, hlamp⟩),
    engineSpoil_fresh hin hfresh]
  generalize ht : (spoilReport id (s.atPhase next)).mapEngine _ = t
  have htin : t.inEngine = some (id, v) := by
    rw [← ht]
    exact inEngine_eq (by show (spoilReport id (s.atPhase next)).engine.current = _; rw [hengine]; exact current) hv
  have htline : t.engine.line = 0 := by
    rw [← ht]
    show (spoilReport id (s.atPhase next)).engine.line = 0
    rw [hengine]
    rfl
  rw [enterSpoiled, htin, if_neg (by simp [hspoiled]), beginLine_first htin htline fun _ => .inl hspoiled, ← ht]
  rcases hlit with rfl | ⟨rfl, -⟩
  · rfl
  · exact congrArg (fun engine => { spoilReport id (s.atPhase .image) with engine }) (if_pos hspoiled)

end

/-! ### The unit start (R75) -/

/-- The state of a started unit at its first phase: the slots after the reports, the unit's times, the paper and the
LUT bank; `e1` holds the rest of the engine. -/
def State.begun (s : State) (id : Nat) (u : PrintUnit) (x : Exposure) (handle : Word32) (slots : List (Option Order))
    (next : Phase) (e1 : Engine) : State :=
  let record := s.engine.mag s.engine.active
  let used := { record with remaining := record.remaining - (u.lead + u.print + u.mark) }
  { s with
    orders := { s.orders with slots }
    queue := { s.queue with pool := s.queue.pool.set id (some { u with exposure := some x }), signal := true }
    engine := { e1 with
      magA := if s.engine.active = .a then used else s.engine.magA
      magB := if s.engine.active = .b then used else s.engine.magB
      handle, awaitingSettings := false
      activeBank := if s.engine.swapPending = true then 1 - s.engine.activeBank else s.engine.activeBank
      swapPending := false, phase := some next, line := 0 } }

/-- The engine that has been granted a unit (R71). -/
def Engine.granted (id : Nat) (e : Engine) : Engine :=
  { e with
    state := .exposing, current := some id, buffer1 := .empty, buffer2 := .empty
    firstLineTimer := false }

/-- The figures a unit's start takes: the handle and the times of its line, and the slots after its reports (R75). -/
structure StartFigures (s : State) (u : PrintUnit) (x : Exposure) (handle : Word32) (slots : List (Option Order)) :
    Prop where
  times   : x = dose s.store.calibration u.surface (((s.unitLine u).map Line.corrections).getD Corrections.zero)
  line    : handle = ((s.unitLine u).map Line.handle).getD 0
  reports : ∀ t : State, t.orders.slots = s.orders.slots → reportStart u x.anyClamp t = t.withSlots slots

section
variable {s : State} {id : Nat} {u : PrintUnit} {x : Exposure} {handle : Word32} {slots : List (Option Order)} {next : Phase}

/-- The state of a start before its reports (R75). -/
def State.startFed (s : State) (id : Nat) (u : PrintUnit) (x : Exposure) (handle : Word32) : State :=
  let r := s.engine.mag s.engine.active
  ((s.setUnit id { u with exposure := some x }).setMag s.engine.active
    { r with remaining := r.remaining - u.length }).mapEngine fun e => { e with
      handle, awaitingSettings := false
      activeBank := if e.swapPending then 1 - e.activeBank else e.activeBank
      swapPending := false }

theorem setMag_eq (s : State) (m : Magazine) (r : MagazineRecord) :
    s.setMag m r = { s with
      engine := { s.engine with
        magA := if m = .a then r else s.engine.magA
        magB := if m = .b then r else s.engine.magB }
      queue := { s.queue with signal := true } } := by
  cases m <;> rfl

theorem startFed_atPhase (slots : List (Option Order)) :
    ((s.startFed id u x handle).withSlots slots).atPhase next = s.begun id u x handle slots next s.engine := by
  unfold State.startFed State.begun
  dsimp only
  rw [setMag_eq]
  rfl

theorem completeStart_eq (clean : CleanStorage s) (hu : s.unit? id = some u) (hnext : u.nextPhase none = some next)
    (figures : StartFigures s u x handle slots) :
    completeStart id s = enterPhase next ((s.startFed id u x handle).withSlots slots) := by
  have hfed : (s.startFed id u x handle).orders.slots = s.orders.slots := by
    unfold State.startFed
    cases s.engine.active <;> rfl
  rw [← figures.reports _ hfed]
  obtain ⟨rfl, rfl, -⟩ := figures
  obtain ⟨kind, slot, number, position, copy, lineage, surface, width, lead, print, border, mark, place, spoiled, void,
    exposure⟩ := u
  cases slot with
  | none =>
    simp only [completeStart, hu, hnext]
    rfl
  | some i =>
    simp only [completeStart, hu, hnext, readSlot_clean clean]
    rfl

/-- The entry changes only what the start leaves open. -/
theorem begun_entering (e1 : Engine) (head : HeadOutput) (phase : Option Phase) (line : Nat) (word : Word32) :
    (s.begun id u x handle slots next { e1 with head, phase, line, handle := word }).mapEngine
        (Engine.entering { u with exposure := some x } next) =
      s.begun id u x handle slots next (Engine.entering u next e1) := by
  unfold State.begun Engine.entering State.mapEngine
  cases next with
  | lead | topBorder | bottomBorder | mark => rfl
  | image =>
    dsimp only
    split
    · rfl
    · split <;> rfl

end

section
variable {s : State} {id : Nat} {u : PrintUnit} {x : Exposure} {handle : Word32} {slots : List (Option Order)} {next : Phase}

/-- A start completed for the unit in the engine (R75, R76). -/
theorem completeStart_spec (clean : CleanStorage s) (hu : s.unit? id = some u) (current : s.engine.current = some id)
    (hnext : u.nextPhase none = some next) (figures : StartFigures s u x handle slots) :
    (¬Dips s u next → completeStart id s =
        (s.begun id u x handle slots next s.engine).mapEngine (Engine.entering { u with exposure := some x } next))
      ∧ (Dips s u next → completeStart id s =
        (spoilReport id (s.begun id u x handle slots next s.engine)).mapEngine Engine.dipping) := by
  have hbegun := startFed_atPhase (s := s) (id := id) (u := u) (x := x) (handle := handle) (next := next) slots
  generalize ht : (s.startFed id u x handle).withSlots slots = t at hbegun
  have hstart : completeStart id s = enterPhase next t := ht ▸ completeStart_eq clean hu hnext figures
  have hengine : t.engine.current = s.engine.current ∧ t.engine.holds = s.engine.holds ∧ t.memory = s.memory
      ∧ t.queue.pool = s.queue.pool.set id (some { u with exposure := some x }) := by
    rw [← ht]
    unfold State.startFed
    dsimp only
    rw [setMag_eq]
    exact ⟨rfl, rfl, rfl, rfl⟩
  obtain ⟨hcurrent, hholds, hmemory, hpool⟩ := hengine
  have htcurrent : t.engine.current = some id := hcurrent.trans current
  have htu : t.unit? id = some { u with exposure := some x } := by
    rw [unit?_eq, hpool]
    exact recordOf_set_self (recordOf_lt hu) _
  have htclean : CleanStorage t := (congrArg RecordMemory.upsets hmemory).trans clean
  have hdips : Dips t { u with exposure := some x } next ↔ Dips s u next := by
    unfold Dips
    rw [hholds]
  rw [hstart, ← hbegun]
  exact ⟨fun h => enterPhase_entering htcurrent htu (mt hdips.mp h),
    fun h => enterPhase_dips htclean htcurrent htu (hdips.mpr h)⟩

/-- A granted unit's start, taken at once or after a wait for its settings (R71, R75). -/
theorem unitStart_spec (clean : CleanStorage s) (idle : s.cycleRuns = false) (hu : s.unit? id = some u)
    (hnext : u.nextPhase none = some next) (figures : StartFigures s u x handle slots) :
    let begun := s.begun id u x handle slots next
    let dipped := fun e1 => (spoilReport id (begun e1)).mapEngine Engine.dipping
    (¬Dips s u next → beginStart id s = begun (Engine.entering u next (s.engine.granted id)))
      ∧ (Dips s u next → beginStart id s = dipped (s.engine.granted id))
      ∧ (Running s → s.engine.awaitingSettings = true → s.engine.state = .exposing → s.engine.current = some id →
        (¬Dips s u next → exec (.waitingReadProceeds .unitStart) s = .next
          { begun (Engine.entering u next s.engine) with
            queue := { (begun (Engine.entering u next s.engine)).queue with signal := false } })
        ∧ (Dips s u next → exec (.waitingReadProceeds .unitStart) s = .next (settle (dipped s.engine)))) := by
  intro begun dipped
  let s1 := s.mapEngine fun e => { e with
    state := .exposing, phase := none, current := some id, line := 0, handle := 0, head := .unlit
    buffer1 := .empty, buffer2 := .empty, firstLineTimer := false }
  have hs1 : beginStart id s = completeStart id s1 := if_neg (show ¬s1.cycleRuns = true by
    show ¬s.cycleRuns = true
    simp [idle])
  have hclean : CleanStorage s1 := clean
  have hfigures : StartFigures s1 u x handle slots := ⟨figures.times, figures.line, figures.reports⟩
  obtain ⟨hfirst, hdips⟩ := completeStart_spec hclean (show s1.unit? id = some u from hu) rfl hnext hfigures
  have hbegun : s1.begun id u x handle slots next s1.engine =
      (begun (s.engine.granted id)).mapEngine fun e => { e with head := .unlit } := rfl
  refine ⟨fun h => hs1.trans ((hfirst h).trans ?_), fun h => hs1.trans ((hdips h).trans ?_),
    fun running waits exposing current => ?_⟩
  · exact begun_entering (s.engine.granted id) .unlit none 0 0
  · have hbclean : CleanStorage (begun (s.engine.granted id)) := clean
    rw [hbegun, spoilReport_mapEngine hbclean]
    rfl
  · have hproceed : proceed .unitStart s = completeStart id s := by
      unfold proceed
      rw [if_neg (by simp [idle])]
      simp only [waits, current]
    obtain ⟨hfirst, hdips⟩ := completeStart_spec clean hu current hnext figures
    have hexec : exec (.waitingReadProceeds .unitStart) s = .next (settle (completeStart id s)) :=
      congrArg Host.Outcome.next ((whileOnActing_on running.power).trans (congrArg settle hproceed))
    refine ⟨fun h => ?_, fun h => ?_⟩
    · have hentered : completeStart id s = begun (Engine.entering u next s.engine) :=
        (hfirst h).trans (begun_entering s.engine s.engine.head s.engine.phase s.engine.line s.engine.handle)
      have hstate : (Engine.entering u next s.engine).state = .exposing := by
        cases next with
        | lead | topBorder | bottomBorder | mark => exact exposing
        | image =>
          unfold Engine.entering
          dsimp only
          split
          · exact exposing
          · split <;> exact exposing
      rw [hexec, hentered]
      refine congrArg Host.Outcome.next (settle_busy running.noTrial ?_)
      show (Engine.entering u next s.engine).state ≠ .idle
      rw [hstate]
      decide
    · rw [hexec, hdips h]

end

/-- The first phase with lines (R76). -/
theorem nextPhase_first {u : PrintUnit} {passed rest : List Phase} {next : Phase}
    (hsplit : [Phase.lead, .topBorder, .image, .bottomBorder, .mark] = passed ++ next :: rest)
    (hpassed : ∀ p ∈ passed, u.phaseLines p = 0) (hnext : u.phaseLines next ≠ 0) : u.nextPhase none = some next := by
  unfold PrintUnit.nextPhase phasesAfter
  rw [hsplit, List.find?_append, List.find?_eq_none.mpr fun p hp => by simp [hpassed p hp]]
  simp [hnext]

/-- The report of a start on the unit's order and line (R15, R65, R75). -/
theorem startFigures_order {s : State} {u : PrintUnit} {i p : Nat} {o : Order} {l : Line} (hslot : u.slot = some i)
    (ho : s.order? i = some o) (sound : o.state ≠ .damaged) (hnumber : u.number = some o.number)
    (hposition : u.position = some p) (hl : o.lines[p - 1]? = some l) :
    let x := dose s.store.calibration u.surface { d := l.d, c := l.c, m := l.m, y := l.y }
    let started := if o.state = .queued then { o with state := .exposing } else o
    StartFigures s u x l.handle (s.orders.slots.set i (some
      (if x.clampR = true ∨ x.clampG = true ∨ x.clampB = true then
        { started with clamped := true, lines := o.lines.set (p - 1) { l with clamped := true } }
      else started))) := by
  intro x started
  have hsound : ∀ t : State, t.orders.slots = s.orders.slots → t.soundOrder u = some o := fun t ht =>
    soundOrder_some.mpr ⟨i, hslot, by rw [State.order?, ht]; exact ho, hnumber, sound⟩
  have hline : s.unitLine u = some l := by
    simp only [State.unitLine, hsound s rfl, Option.bind_some, hposition, hl]
  refine ⟨by rw [hline]; rfl, by rw [hline]; rfl, fun t ht => ?_⟩
  have hclamp : x.anyClamp = true ↔ x.clampR = true ∨ x.clampG = true ∨ x.clampB = true := by
    simp [Exposure.anyClamp, or_assoc]
  have hlines : started.lines = o.lines := by
    show (if o.state = .queued then { o with state := .exposing } else o).lines = _
    split <;> rfl
  have hmodify : started.clampLine p =
      { started with clamped := true, lines := o.lines.set (p - 1) { l with clamped := true } } := by
    unfold Order.clampLine
    rw [hlines, List.modify_eq_set_getElem?, hl]
    rfl
  simp only [reportStart, hslot, hsound t ht, hposition, Option.getD_some, hclamp]
  change t.setOrder i (if _ then started.clampLine p else started) = _
  rw [hmodify, ← ht]
  rfl

/-- A unit that reports to no order: a STRIP, and a print whose order is DAMAGED or gone (R75). -/
theorem startFigures_none {s : State} {u : PrintUnit} (none : ∀ t : State, t.orders.slots = s.orders.slots →
    t.soundOrder u = none) :
    StartFigures s u (dose s.store.calibration u.surface { d := 0, c := 0, m := 0, y := 0 }) 0 s.orders.slots := by
  have hline : s.unitLine u = Option.none := by
    simp only [State.unitLine, none s rfl, Option.bind_none]
  refine ⟨by rw [hline]; rfl, by rw [hline]; rfl, fun t ht => ?_⟩
  have hself : t.withSlots s.orders.slots = t := by rw [← ht]; rfl
  unfold reportStart
  rw [none t ht, hself]
  cases u.slot <;> rfl

/-- Settles O45. -/
theorem unitStartTakesItsFigures : Obligations.UnitStartTakesItsFigures := by
  intro id u passed rest next s clean idle hu hsplit hpassed hnext e tone record used dips starts
  have hstarts : ∀ handle x slots, StartFigures s u x handle slots → starts handle x slots := by
    intro handle x slots figures
    unfold starts
    intro begun enters dipped granted
    have henters : ∀ e1, enters e1 = s.begun id u x handle slots next (Engine.entering u next e1) := fun e1 => by
      cases next <;> rfl
    have hspec := unitStart_spec clean idle hu (nextPhase_first hsplit hpassed hnext) figures
    simp only [← henters] at hspec
    exact hspec
  refine ⟨fun i p o l print hslot ho sound hnumber hposition hp hl => ?_, fun hnone => ?_⟩
  · exact hstarts _ _ _ (startFigures_order hslot ho sound hnumber hposition hl)
  · refine hstarts _ _ _ (startFigures_none fun t ht => ?_)
    by_contra hsome
    obtain ⟨o, ho⟩ := Option.ne_none_iff_exists'.mp hsome
    obtain ⟨i, hslot, hi, hnumber, sound⟩ := soundOrder_some.mp ho
    rw [State.order?, ht] at hi
    exact ((hnone i hslot).2 o hi).elim sound fun h => h hnumber

end Sys2Proof.Machine
end

section
/-! The store check and the cold start (R184, R185; O58). -/

namespace Sys2Proof.Machine

/-! ### Notices raised one after another (R175) -/

/-- The Notice Unit with a kind raised. -/
def NoticeUnit.raise (n : NoticeUnit) (kind : NoticeKind) (detail : Nat) : NoticeUnit :=
  { kinds := n.kinds.modify kind.index fun k => k.raised detail }

theorem raise_notices (s : State) (kind : NoticeKind) (detail : Nat) :
    (s.raise kind detail).notices = s.notices.raise kind detail := rfl

/-- Notices raised in a row depend on the Notice Unit alone. -/
theorem foldl_raise_notices {α : Type} (kind : NoticeKind) (detail : α → Nat) (l : List α) (s : State) :
    (l.foldl (fun t a => t.raise kind (detail a)) s).notices =
      l.foldl (fun n a => n.raise kind (detail a)) s.notices := by
  induction l generalizing s with
  | nil => rfl
  | cons a l ih => exact ih _

/-! ### The store check (R184) -/

/-- The sheets in R180's order. -/
def sheetNames : List SheetName := [.size, .price, .calibration, .stations, .general]

/-- Whether a sheet fails the store check. -/
def SettingsStore.fails (st : SettingsStore) (name : SheetName) : Bool := !checkAgrees (st.sheet name).entries

/-- A sheet after the store check. -/
def Sheet.afterCheck (sheet : Sheet) : Sheet :=
  { sheet with
    bad := !checkAgrees sheet.entries
    pages := if (!checkAgrees sheet.entries) = true then [false, false, false, false] else sheet.pages }

theorem afterCheck_agrees {sheet : Sheet} (h : checkAgrees sheet.entries = true) :
    sheet.afterCheck = { sheet with bad := false } := by
  simp [Sheet.afterCheck, h]

theorem afterCheck_disagrees {sheet : Sheet} (h : ¬checkAgrees sheet.entries = true) :
    sheet.afterCheck = { sheet with bad := true, pages := [false, false, false, false] } := by
  simp [Sheet.afterCheck, h]

/-- The store after its check. -/
def SettingsStore.afterCheck (st : SettingsStore) : SettingsStore :=
  { st with
    size := st.size.afterCheck, price := st.price.afterCheck, calibration := st.calibration.afterCheck
    stations := st.stations.afterCheck, general := st.general.afterCheck }

theorem afterCheck_sheet (st : SettingsStore) (name : SheetName) :
    st.afterCheck.sheet name = { st.sheet name with
      bad := st.fails name
      pages := if st.fails name = true then [false, false, false, false] else (st.sheet name).pages } := by
  cases name <;> rfl

/-- The state with another store and other notices. -/
def State.withChecked (s : State) (store : SettingsStore) (notices : NoticeUnit) : State := { s with store, notices }

theorem checkSheet_withChecked (name : SheetName) (s : State) (store : SettingsStore) (notices : NoticeUnit) :
    checkSheet name (s.withChecked store notices) =
      s.withChecked (store.setSheet name (store.sheet name).afterCheck)
        (if store.fails name = true then notices.raise .storeSheetBad name.code else notices) := by
  by_cases agrees : checkAgrees (store.sheet name).entries = true
  · have hgood : store.fails name = false := by simp [SettingsStore.fails, agrees]
    rw [if_neg (by simp [hgood]), afterCheck_agrees agrees]
    exact if_pos agrees
  · have hbad : store.fails name = true := by simp [SettingsStore.fails, agrees]
    rw [if_pos hbad, afterCheck_disagrees agrees]
    exact if_neg agrees

/-- The store check judges every sheet by its check value and raises STORE_SHEET_BAD for the BAD ones in order
(R184). -/
theorem storeCheck_eq (s : State) :
    storeCheck s = s.withChecked s.store.afterCheck
      (((sheetNames.filter s.store.fails).foldl (fun t name => t.raise .storeSheetBad name.code) s).notices) := by
  rw [foldl_raise_notices, List.foldl_filter]
  show [SheetName.size, .price, .calibration, .stations, .general].foldl (fun s n => checkSheet n s)
    (s.withChecked s.store s.notices) = _
  simp only [List.foldl_cons, List.foldl_nil, checkSheet_withChecked]
  rfl

theorem cutCycle_none {s : State} (h : s.store.cycle = none) : cutCycle s = s := by
  simp only [cutCycle, h]

/-! ### What a start senses (R80, R94, R128) -/

theorem widthOfCode_eq (code : Nat) :
    widthOfCode (code % 8) =
      [none, some 89, some 102, some 127, some 152, some 203, some 254, some 305].getD (code % 8) none := by
  have h : ∀ n < 8, widthOfCode n =
      [none, some 89, some 102, some 127, some 152, some 203, some 254, some 305].getD n none := by decide
  exact h _ (Nat.mod_lt _ (by decide))

/-- Settles O58. -/
theorem coldStartSetsEveryBlock : Obligations.ColdStartSetsEveryBlock := by
  intro x s hcycle bad found magazine r
  have hmagazine : ∀ m, senseMagazine m 0 = magazine m := fun m => by
    unfold senseMagazine
    rw [widthOfCode_eq]
    rfl
  refine ⟨s.store.afterCheck, hcycle, fun name => afterCheck_sheet s.store name, ?_⟩
  show Host.Outcome.next (coldStart x s) = _
  refine congrArg Host.Outcome.next ?_
  unfold coldStart
  rw [cutCycle_none hcycle]
  dsimp only
  rw [storeCheck_eq, hmagazine, hmagazine]
  simp only [foldl_raise_notices]
  rfl

end Sys2Proof.Machine
end

section
/-! What the work at the end of a write cycle leaves alone (R183; for O56). -/

namespace Sys2Proof.Machine

/-- The figures of a surface that its due state rests on (R143, R144). -/
def SurfaceCal.dueFigures (r : SurfaceCal) : Nat × Bool × Bool := (r.counter, r.due, r.checkWaiting)

/-- What an operation of the print path from `r` to `s` leaves alone: the copies of GENERAL's figures, the SHEET_BAD
hold, the surfaces' due state and its notice, the owed draft comparison, the train's entries but those that leave it,
and the waiting marks. A signal stays, and clean storage stays clean. -/
structure CycleFrame (r s : State) : Prop where
  threshold : s.memory.threshold = r.memory.threshold
  capacity  : s.sorter.capacity = r.sorter.capacity
  sheetBad  : s.engine.holds.sheetBad = r.engine.holds.sheetBad
  surfaces  : ∀ k, (s.surface k).dueFigures = (r.surface k).dueFigures
  calDue    : s.notices.kinds[8]? = r.notices.kinds[8]?
  drafts    : s.orders.draftCheckDue = r.orders.draftCheckDue
  train     : ∀ e ∈ s.transit.train, e ∈ r.transit.train
  marks     : s.transit.waitingMarks = r.transit.waitingMarks
  signal    : r.queue.signal = true → s.queue.signal = true
  clean     : CleanStorage r → CleanStorage s

/-- The same of an operation that on clean storage brings no order to COMPLETE. -/
structure CycleKeeps (r s : State) : Prop extends CycleFrame r s where
  complete : CleanStorage r → ∀ i o, s.order? i = some o → o.state = .complete →
    ∃ o', r.order? i = some o' ∧ o'.state = .complete

theorem CycleFrame.trans {r s t : State} (h : CycleFrame r s) (k : CycleFrame s t) : CycleFrame r t where
  threshold := k.threshold.trans h.threshold
  capacity := k.capacity.trans h.capacity
  sheetBad := k.sheetBad.trans h.sheetBad
  surfaces j := (k.surfaces j).trans (h.surfaces j)
  calDue := k.calDue.trans h.calDue
  drafts := k.drafts.trans h.drafts
  train e he := h.train e (k.train e he)
  marks := k.marks.trans h.marks
  signal hr := k.signal (h.signal hr)
  clean hr := k.clean (h.clean hr)

theorem CycleKeeps.trans {r s t : State} (h : CycleKeeps r s) (k : CycleKeeps s t) : CycleKeeps r t where
  toCycleFrame := h.toCycleFrame.trans k.toCycleFrame
  complete hr i o ho hc := by
    obtain ⟨o', ho', hc'⟩ := k.complete (h.clean hr) i o ho hc
    exact h.complete hr i o' ho' hc'

theorem CycleFrame.refl (s : State) : CycleFrame s s :=
  ⟨rfl, rfl, rfl, fun _ => rfl, rfl, rfl, fun _ he => he, rfl, id, id⟩

/-- An operation that leaves the slots alone brings no order to COMPLETE. -/
theorem CycleFrame.keeps {r s : State} (h : CycleFrame r s) (slots : s.orders.slots = r.orders.slots) : CycleKeeps r s :=
  ⟨h, fun _ i o ho hc => ⟨o, by rw [State.order?, ← slots]; exact ho, hc⟩⟩

theorem CycleKeeps.refl (s : State) : CycleKeeps s s := (CycleFrame.refl s).keeps rfl

/-- A fold of operations that each leave these alone. -/
theorem CycleKeeps.foldl {α : Type} {f : State → α → State} (hf : ∀ s a, CycleKeeps s (f s a)) (l : List α) (s : State) :
    CycleKeeps s (l.foldl f s) := by
  induction l generalizing s with
  | nil => exact .refl s
  | cons a l ih => exact (hf s a).trans (ih _)

theorem CycleFrame.foldl {α : Type} {f : State → α → State} (hf : ∀ s a, CycleFrame s (f s a)) (l : List α) (s : State) :
    CycleFrame s (l.foldl f s) := by
  induction l generalizing s with
  | nil => exact .refl s
  | cons a l ih => exact (hf s a).trans (ih _)

section
variable {s : State}

/-! ### Records, queue and notices -/

/-- Only the Exposure Queue is changed, its signal kept. -/
theorem CycleKeeps.of_queue {q : ExposureQueue} (h : s.queue.signal = true → q.signal = true) :
    CycleKeeps s { s with queue := q } :=
  CycleFrame.keeps ⟨rfl, rfl, rfl, fun _ => rfl, rfl, rfl, fun _ he => he, rfl, h, id⟩ rfl

/-- Only the held list, the owed trial and the Exposure Queue are changed. -/
theorem CycleKeeps.of_held {q : ExposureQueue} {held : List Nat} {due : Bool}
    (h : s.queue.signal = true → q.signal = true) :
    CycleKeeps s { s with orders := { s.orders with heldList := held, trialDue := due }, queue := q } :=
  CycleFrame.keeps ⟨rfl, rfl, rfl, fun _ => rfl, rfl, rfl, fun _ he => he, rfl, h, id⟩ rfl

/-- Only the engine and the Exposure Queue are changed. -/
theorem CycleKeeps.of_engine {e : Engine} {q : ExposureQueue} (h : e.holds.sheetBad = s.engine.holds.sheetBad)
    (hq : s.queue.signal = true → q.signal = true) : CycleKeeps s { s with engine := e, queue := q } :=
  CycleFrame.keeps ⟨rfl, rfl, h, fun _ => rfl, rfl, rfl, fun _ he => he, rfl, hq, id⟩ rfl

theorem CycleFrame.of_slots {slots : List (Option Order)} :
    CycleFrame s { s with orders := { s.orders with slots } } :=
  ⟨rfl, rfl, rfl, fun _ => rfl, rfl, rfl, fun _ he => he, rfl, id, id⟩

/-- An order written in COMPLETE only over one that is. -/
theorem CycleKeeps.setOrder_of {i : Nat} {o : Order}
    (h : o.state = .complete → ∃ o', s.order? i = some o' ∧ o'.state = .complete) : CycleKeeps s (s.setOrder i o) := by
  refine ⟨CycleFrame.of_slots, fun _ k x hx hc => ?_⟩
  have hk : (s.orders.slots.set i (some o)).getD k none = some x := hx
  rw [List.getD_eq_getElem?_getD, List.getElem?_set] at hk
  split at hk
  · next hik =>
    split at hk
    · cases hk
      exact hik ▸ h hc
    · cases hk
  · exact ⟨x, by rw [State.order?, List.getD_eq_getElem?_getD]; exact hk, hc⟩

theorem CycleKeeps.setOrder {i : Nat} {o : Order} (h : o.state ≠ .complete) : CycleKeeps s (s.setOrder i o) :=
  .setOrder_of fun hc => absurd hc h

theorem CycleKeeps.setUnit (id : Nat) (u : PrintUnit) : CycleKeeps s (s.setUnit id u) :=
  .of_queue fun h => h

theorem CycleKeeps.modifyUnit (id : Nat) (f : PrintUnit → PrintUnit) : CycleKeeps s (s.modifyUnit id f) := by
  unfold State.modifyUnit
  split
  · exact .setUnit ..
  · exact .refl s

theorem CycleKeeps.releaseUnits (ids : List Nat) : CycleKeeps s (s.releaseUnits ids) :=
  .foldl (fun _ _ => .of_queue fun _ => rfl) ids s

theorem CycleKeeps.makeUnit (u : PrintUnit) : CycleKeeps s (s.makeUnit u).2 := by
  unfold State.makeUnit
  split
  · exact .setUnit ..
  · exact .refl s

theorem CycleKeeps.makeUnits (us : List PrintUnit) : CycleKeeps s (s.makeUnits us).2 := by
  rw [makeUnits_eq]
  exact .of_queue id

theorem CycleKeeps.joinTail (cls : OrderClass) (ids : List Nat) : CycleKeeps s (s.joinTail cls ids) := by
  rw [joinTail_eq]
  exact .of_queue fun _ => rfl

theorem CycleKeeps.joinHead (cls : OrderClass) (ids : List Nat) : CycleKeeps s (s.joinHead cls ids) := by
  rw [joinHead_eq]
  exact .of_queue fun _ => rfl

theorem CycleKeeps.leaveQueue (ids : List Nat) : CycleKeeps s (s.leaveQueue ids) := .of_queue id

theorem CycleKeeps.oweTrial : CycleKeeps s s.oweTrial := .of_held id

theorem CycleKeeps.removeQueued (ids : List Nat) : CycleKeeps s (s.removeQueued ids) := by
  unfold State.removeQueued
  split
  · exact .refl s
  · exact ((CycleKeeps.leaveQueue ids).trans (.releaseUnits ids)).trans .oweTrial

theorem CycleKeeps.setFigures (i : Nat) (e : Option FigureEntry) : CycleKeeps s (s.setFigures i e) := .of_queue id

theorem CycleKeeps.leaveHeldList (i : Nat) : CycleKeeps s (s.leaveHeldList i) := by
  unfold State.leaveHeldList
  split
  · exact .of_held id
  · exact .refl s

theorem CycleKeeps.setHeldCause (cause : Option HeldCause) : CycleKeeps s (s.setHeldCause cause) := .of_queue id

/-- A kind other than CAL_DUE is raised. -/
theorem CycleKeeps.raise {kind : NoticeKind} (detail : Nat) (h : kind ≠ .calDue) : CycleKeeps s (s.raise kind detail) := by
  have hne : kind.index ≠ 8 := by cases kind <;> simp_all [NoticeKind.index]
  exact CycleFrame.keeps ⟨rfl, rfl, rfl, fun _ => rfl, List.getElem?_modify_ne _ _ hne, rfl, fun _ he => he, rfl, id, id⟩ rfl

/-! ### Accesses to slots (R177, R178) -/

theorem CycleFrame.countCorrection (i : Nat) : CycleFrame s (s.countCorrection i) := by
  have k : ∀ n, CycleFrame s { s with memory := { s.memory with corrections := n } } := fun _ =>
    ⟨rfl, rfl, rfl, fun _ => rfl, rfl, rfl, fun _ he => he, rfl, id, id⟩
  unfold State.countCorrection
  split
  · dsimp only
    split
    · exact (k _).trans (CycleKeeps.raise _ (by decide)).toCycleFrame
    · exact k _
  · exact .refl s

theorem CycleFrame.readWords (i : Nat) (words : List Upset) (f : AccessFinding) : CycleFrame s (readWords i words (f, s)).2 := by
  induction words generalizing f s with
  | nil => exact .refl s
  | cons u rest ih =>
    unfold Sys2Proof.Machine.readWords
    have hdrawn : CycleFrame s (if decide (3 ≤ u.bits) then s.drawn else s) := by
      split
      · exact ⟨rfl, rfl, rfl, fun _ => rfl, rfl, rfl, fun _ he => he, rfl, id, id⟩
      · exact .refl s
    dsimp only
    split
    · exact hdrawn.trans (ih _)
    · exact (hdrawn.trans (.countCorrection i)).trans (ih _)
    · exact hdrawn.trans (ih _)

theorem CycleFrame.damageSlot (i : Nat) (o : Order) (lost : Bool) : CycleFrame s (s.damageSlot i o lost) :=
  (CycleFrame.of_slots.trans (CycleKeeps.raise _ (by decide)).toCycleFrame).trans
    (CycleKeeps.leaveHeldList i).toCycleFrame

theorem CycleFrame.garble (i : Nat) (misread : List RecordWord) (o : Order) : CycleFrame s (s.garble i misread o).2 := by
  unfold State.garble
  split
  · exact .refl s
  · exact ⟨rfl, rfl, rfl, fun _ => rfl, rfl, rfl, fun _ he => he, rfl, id, id⟩

theorem CycleFrame.dropUpsets (drop : Upset → Bool) : CycleFrame s (s.dropUpsets drop) := by
  refine ⟨rfl, rfl, rfl, fun _ => rfl, rfl, rfl, fun _ he => he, rfl, id, fun clean => ?_⟩
  show s.memory.upsets.filter _ = []
  rw [show s.memory.upsets = [] from clean, List.filter_nil]

theorem CycleKeeps.readSlot (i : Nat) : CycleKeeps s (readSlot i s) := by
  refine ⟨?_, fun clean k o ho hc => ⟨o, by rwa [readSlot_clean clean] at ho, hc⟩⟩
  unfold Sys2Proof.Machine.readSlot
  split
  · exact .refl s
  · split
    · exact .refl s
    · dsimp only
      split
      · exact .refl s
      · have hread := (CycleFrame.readWords (s := s) i
          (wrongWords (s.memory.upsets.filter fun u => u.slot == i)) .clean).trans (.dropUpsets fun u => u.slot == i)
        split
        · exact (hread.trans (.garble ..)).trans (.damageSlot ..)
        · exact hread.trans (.garble ..)

theorem CycleKeeps.readSlots (is : List Nat) : CycleKeeps s (readSlots is s) := .foldl (fun _ _ => .readSlot _) is s

/-! ### Held trials and spoils (R13, R36 to R39) -/

theorem CycleKeeps.admitOrder (i : Nat) (o : Order) : CycleKeeps s (admitOrder i o s) := by
  unfold Sys2Proof.Machine.admitOrder
  exact (((CycleKeeps.setFigures ..).trans (.makeUnits _)).trans (.joinTail ..)).trans (.setOrder (by simp))

theorem CycleKeeps.heldTrials (n : Nat) : CycleKeeps s (heldTrials n s) := by
  induction n generalizing s with
  | zero => exact .refl s
  | succ n ih =>
    unfold Sys2Proof.Machine.heldTrials
    split
    · exact .setHeldCause _
    · next i _ _ =>
      have hread : CycleKeeps s (Sys2Proof.Machine.readSlot i s) := .readSlot i
      dsimp only
      split
      · split
        · split
          · exact hread.trans (.setHeldCause _)
          · refine CycleKeeps.trans (CycleKeeps.trans ?_ (.admitOrder ..)) ih
            exact hread.trans (.of_held id)
        · exact hread.trans ih
      · exact (hread.trans (.leaveHeldList _)).trans ih
      · exact hread.trans (.setHeldCause _)

theorem CycleKeeps.runTrials : CycleKeeps s (runTrials s) := by
  unfold Sys2Proof.Machine.runTrials
  split
  · exact (CycleKeeps.heldTrials _).trans (.of_held id)
  · exact .refl s

/-- Only the strip record and the filter of the Calibration Unit are changed. -/
theorem CycleKeeps.of_strip {strip : StripRecord} {filter : Filter} :
    CycleKeeps s { s with cal := { s.cal with strip, filter } } :=
  CycleFrame.keeps ⟨rfl, rfl, rfl, fun _ => rfl, rfl, rfl, fun _ he => he, rfl, id, id⟩ rfl

theorem CycleKeeps.stripSpoiled (id : Nat) : CycleKeeps s (stripSpoiled id s) := by
  unfold Sys2Proof.Machine.stripSpoiled
  split
  · split
    · exact .of_strip
    · exact .refl s
  · exact .refl s

theorem CycleKeeps.spoilReprinted {i : Nat} {o : Order} {u : PrintUnit} (h : o.state ≠ .complete) :
    CycleKeeps s (spoilReprinted i o u s) := by
  unfold Sys2Proof.Machine.spoilReprinted
  exact ((CycleKeeps.makeUnit _).trans (.joinHead ..)).trans (.setOrder h)

theorem CycleKeeps.spoilMissing (i : Nat) (o : Order) (u : PrintUnit) : CycleKeeps s (spoilMissing i o u s) := by
  unfold Sys2Proof.Machine.spoilMissing
  dsimp only
  split
  · exact ((CycleKeeps.setFigures ..).trans (.setOrder (by simp))).trans (.raise _ (by decide))
  · exact (CycleKeeps.setOrder (by simp)).trans (.raise _ (by decide))

theorem CycleKeeps.spoilReport (id : Nat) : CycleKeeps s (spoilReport id s) := by
  unfold Sys2Proof.Machine.spoilReport
  split
  · exact .refl s
  · next u _ =>
    split
    · exact .refl s
    · have hmark : CycleKeeps s (s.setUnit id { u with spoiled := true }) := .setUnit ..
      dsimp only
      split
      · exact hmark.trans (.stripSpoiled id)
      · split
        · exact hmark
        · split
          · exact hmark
          · split
            · exact hmark.trans (.readSlot _)
            · split
              · next counts =>
                have hstate := (spoilsCount_iff _).mp counts
                split
                · exact (hmark.trans (.readSlot _)).trans (.spoilReprinted (by
                    rintro h; rw [h] at hstate; simp at hstate))
                · exact (hmark.trans (.readSlot _)).trans (.spoilMissing ..)
              · exact hmark.trans (.readSlot _)

/-! ### Selections (R43, R49) -/

theorem CycleKeeps.removeDamaged : CycleKeeps s (removeDamaged s) := by
  unfold Sys2Proof.Machine.removeDamaged
  exact (((CycleKeeps.readSlots _).trans (.foldl (fun _ _ => .setFigures ..) _ _)).trans (.removeQueued _)).trans .runTrials

theorem CycleKeeps.takeGranted (id : Nat) : CycleKeeps s (takeGranted id s) :=
  ((CycleKeeps.leaveQueue _).trans (.modifyUnit ..)).trans .oweTrial

theorem CycleKeeps.settleSelection : CycleKeeps s (settleSelection s).2 := by
  unfold Sys2Proof.Machine.settleSelection
  dsimp only
  split
  · exact .refl s
  · split
    · exact .refl s
    · split
      · exact .takeGranted _
      · split
        · exact .refl s
        · split
          · exact .refl s
          · split
            · refine CycleKeeps.trans ?_ (.takeGranted _)
              exact .of_queue id
            · split <;> exact .refl s

theorem CycleKeeps.select : CycleKeeps s (select s).2 := CycleKeeps.removeDamaged.trans .settleSelection

/-! ### The engine (R71 to R92) -/

theorem CycleKeeps.mapEngine {f : Engine → Engine} (h : (f s.engine).holds.sheetBad = s.engine.holds.sheetBad) :
    CycleKeeps s (s.mapEngine f) := .of_engine h id

theorem CycleKeeps.setMag (m : Magazine) (r : MagazineRecord) : CycleKeeps s (s.setMag m r) := by
  cases m <;> exact .of_engine rfl fun _ => rfl

theorem CycleKeeps.engineSpoil : CycleKeeps s (engineSpoil s) := by
  unfold Sys2Proof.Machine.engineSpoil
  split
  · exact .refl s
  · dsimp only
    split
    · exact .spoilReport _
    · exact (CycleKeeps.spoilReport _).trans (.mapEngine rfl)

theorem CycleKeeps.beginImageLine (k : Nat) (u : PrintUnit) : CycleKeeps s (beginImageLine k u s) := by
  unfold Sys2Proof.Machine.beginImageLine
  split
  · exact .mapEngine rfl
  · exact (CycleKeeps.engineSpoil.trans (.raise _ (by decide))).trans (.mapEngine rfl)

theorem CycleKeeps.beginLine (phase : Phase) (k : Nat) : CycleKeeps s (beginLine phase k s) := by
  have hline : CycleKeeps s (s.mapEngine fun e => { e with line := k }) := .mapEngine rfl
  unfold Sys2Proof.Machine.beginLine
  dsimp only
  split
  · exact hline.trans (.mapEngine rfl)
  · exact hline.trans (.mapEngine rfl)
  · exact hline.trans (.mapEngine rfl)
  · exact hline.trans (.mapEngine rfl)
  · split
    · exact hline
    · split
      · exact hline.trans (.mapEngine rfl)
      · split
        · split <;> exact hline.trans (.mapEngine rfl)
        · exact hline.trans (.beginImageLine ..)

theorem CycleKeeps.enterPhase (phase : Phase) : CycleKeeps s (enterPhase phase s) := by
  have hphase : CycleKeeps s (s.mapEngine fun e => { e with phase := some phase, line := 0 }) := .mapEngine rfl
  unfold Sys2Proof.Machine.enterPhase
  dsimp only
  split
  · exact hphase
  · split
    · split
      · exact (hphase.trans .engineSpoil).trans (.mapEngine rfl)
      · exact (hphase.trans .engineSpoil).trans (.beginLine ..)
    · split
      · exact hphase.trans (.mapEngine rfl)
      · exact hphase.trans (.beginLine ..)

end

section
variable {s : State}

theorem CycleKeeps.reportStart (u : PrintUnit) (clamped : Bool) : CycleKeeps s (reportStart u clamped s) := by
  unfold Sys2Proof.Machine.reportStart
  split
  · next i o hslot hsound =>
    obtain ⟨k, hk, ho, -⟩ := soundOrder_some.mp hsound
    rw [hslot] at hk
    cases hk
    refine .setOrder_of fun hc => ⟨o, ho, ?_⟩
    have hstate : (if o.state = .queued then { o with state := .exposing } else o).state = .complete := by
      revert hc
      split <;> exact fun hc => hc
    split at hstate
    · cases hstate
    · exact hstate
  · exact .refl s

theorem CycleKeeps.completeStart (id : Nat) : CycleKeeps s (completeStart id s) := by
  unfold Sys2Proof.Machine.completeStart
  split
  · exact .refl s
  · next u _ =>
    have hread : CycleKeeps s (match u.slot with | some i => Sys2Proof.Machine.readSlot i s | none => s) := by
      split
      · exact .readSlot _
      · exact .refl s
    dsimp only
    split
    · refine CycleKeeps.trans (CycleKeeps.trans ?_ (.reportStart ..)) (.enterPhase _)
      exact ((hread.trans (.setUnit ..)).trans (.setMag ..)).trans (.mapEngine rfl)
    · refine CycleKeeps.trans ?_ (.reportStart ..)
      exact ((hread.trans (.setUnit ..)).trans (.setMag ..)).trans (.mapEngine rfl)

theorem CycleKeeps.beginStart (id : Nat) : CycleKeeps s (beginStart id s) := by
  unfold Sys2Proof.Machine.beginStart
  dsimp only
  split
  · exact (CycleKeeps.mapEngine rfl).trans (.mapEngine rfl)
  · refine CycleKeeps.trans ?_ (.completeStart id)
    exact .mapEngine rfl

theorem CycleKeeps.beginChange : CycleKeeps s (beginChange s) := by
  unfold Sys2Proof.Machine.beginChange
  dsimp only
  split
  · exact (CycleKeeps.mapEngine rfl).trans (.mapEngine rfl)
  · exact (CycleKeeps.mapEngine rfl).trans (.mapEngine rfl)

theorem CycleKeeps.makeSelection : CycleKeeps s (makeSelection s) := by
  have hselect : CycleKeeps s (Sys2Proof.Machine.select (s.mapEngine fun e => { e with selectionWaiting := false })).2 :=
    (CycleKeeps.mapEngine rfl).trans .select
  unfold Sys2Proof.Machine.makeSelection
  dsimp only
  split
  · exact hselect.trans (.beginStart _)
  · exact hselect.trans .beginChange
  · exact hselect

theorem CycleKeeps.boundary : CycleKeeps s (boundary s) := by
  unfold Sys2Proof.Machine.boundary
  split
  · dsimp only
    split
    · exact (CycleKeeps.mapEngine rfl).trans (.mapEngine rfl)
    · refine CycleKeeps.trans ?_ .makeSelection
      exact .mapEngine rfl
  · exact .mapEngine rfl

/-- What follows the removal of a hold reason. -/
theorem CycleKeeps.removeHold_rest (reason : HoldReason) :
    CycleKeeps (s.mapEngine fun e => { e with holds := e.holds.put reason false }) (removeHold reason s) := by
  unfold Sys2Proof.Machine.removeHold
  dsimp only
  split
  · exact .boundary
  · exact .refl _

theorem CycleKeeps.removeHold {reason : HoldReason} (h : reason ≠ .sheetBad) : CycleKeeps s (removeHold reason s) := by
  refine CycleKeeps.trans (.mapEngine ?_) (.removeHold_rest reason)
  cases reason <;> simp_all [HoldSet.put]

theorem CycleKeeps.answerSignal : CycleKeeps s (answerSignal s) := by
  unfold Sys2Proof.Machine.answerSignal
  split
  · exact .boundary
  · exact .refl s

/-! ### Cuts and the sorter (R101 to R119) -/

theorem CycleFrame.freeSlot (i : Nat) : CycleFrame s (s.freeSlot i) := by
  refine ⟨rfl, rfl, rfl, fun _ => rfl, rfl, rfl, fun _ he => he, rfl, id, fun clean => ?_⟩
  show s.memory.upsets.filter _ = []
  rw [show s.memory.upsets = [] from clean, List.filter_nil]

theorem CycleFrame.voidGone (u : PrintUnit) : CycleFrame s (voidGone u s) := by
  unfold Sys2Proof.Machine.voidGone
  split
  · split
    · dsimp only
      split
      · exact .freeSlot _
      · exact .of_slots
    · exact .refl s
  · exact .refl s

/-- Only the Sorter is changed, its capacity kept. -/
theorem CycleFrame.mapSorter {f : Sorter → Sorter} (h : (f s.sorter).capacity = s.sorter.capacity) :
    CycleFrame s (s.mapSorter f) :=
  ⟨rfl, h, rfl, fun _ => rfl, rfl, rfl, fun _ he => he, rfl, id, id⟩

theorem CycleFrame.setBin (n : Nat) (b : Bin) : CycleFrame s (s.setBin n b) :=
  ⟨rfl, rfl, rfl, fun _ => rfl, rfl, rfl, fun _ he => he, rfl, id, id⟩

theorem CycleFrame.rejectPrint : CycleFrame s (rejectPrint s) :=
  (CycleFrame.mapSorter rfl).trans (.mapSorter rfl)

theorem CycleFrame.unclaimedPrint : CycleFrame s (unclaimedPrint s) :=
  (CycleFrame.mapSorter rfl).trans (.mapSorter rfl)

theorem CycleFrame.placeGood (i : Nat) (o : Order) : CycleFrame s (placeGood i o s) := by
  have spill : CycleFrame s (((s.selectGate .overflow).mapSorter fun b =>
      { b with overflow := satUp b.overflow 65535 }).setOrder i
      { o.deliver with trayCount := o.trayCount + 1, spill := true }) :=
    ((CycleFrame.mapSorter rfl).trans (.mapSorter rfl)).trans .of_slots
  unfold Sys2Proof.Machine.placeGood
  dsimp only
  split
  · split
    · exact ((CycleFrame.mapSorter rfl).trans (.setBin ..)).trans .of_slots
    · exact spill
  · split
    · exact ((CycleFrame.mapSorter rfl).trans (.setBin ..)).trans .of_slots
    · exact spill

theorem CycleFrame.priceSlot (i : Nat) : CycleFrame s (priceSlot i s) := by
  unfold Sys2Proof.Machine.priceSlot
  split
  · exact .refl s
  · split
    · exact .refl s
    · split
      · dsimp only
        split
        · split
          · exact (CycleKeeps.readSlot _).toCycleFrame.trans .of_slots
          · exact (CycleKeeps.readSlot _).toCycleFrame
        · exact (CycleKeeps.readSlot _).toCycleFrame
      · exact .refl s

theorem CycleFrame.pricingPass : CycleFrame s (pricingPass s) := .foldl (fun _ _ => .priceSlot _) slotIndexes s

theorem CycleFrame.completeIfDone (i : Nat) : CycleFrame s (completeIfDone i s) := by
  have priced : ∀ t : State, CycleFrame t (priceCompleted i t) := fun t => by
    unfold Sys2Proof.Machine.priceCompleted
    split
    · exact .refl t
    · exact .priceSlot i
  unfold Sys2Proof.Machine.completeIfDone
  split
  · split
    · dsimp only
      split
      · exact (CycleFrame.of_slots.trans (.setBin ..)).trans (priced _)
      · exact CycleFrame.of_slots.trans (priced _)
    · exact .refl s
  · exact .refl s

/-- A calibration that ends changes no surface's due state (R149). -/
theorem CycleFrame.abandonCalibration (u : Nat) (cause : AbandonCause) : CycleFrame s (abandonCalibration u cause s) := by
  refine ⟨rfl, rfl, rfl, fun k => ?_, rfl, rfl, fun _ he => he, rfl, id, id⟩
  show ((s.cal.surfaces.set u { s.surface u with last := some (abandonedResult cause s.shopTime) }).getD k _).dueFigures = _
  rw [List.getD_eq_getElem?_getD, List.getElem?_set]
  split
  · next huk =>
    subst huk
    split
    · rfl
    · next hlen =>
      simp only [State.surface, List.getD_eq_getElem?_getD, List.getElem?_eq_none (Nat.le_of_not_lt hlen)]
  · simp only [State.surface, List.getD_eq_getElem?_getD]

theorem CycleFrame.stripHandOver (id : Nat) (blind : Bool) : CycleFrame s (stripHandOver id blind s) := by
  have release : ∀ t : State, CycleFrame t (t.releaseUnit id) := fun t => (CycleKeeps.of_queue fun _ => rfl).toCycleFrame
  have cleared : CycleFrame s ((s.setStrip .none).releaseUnit id) := CycleKeeps.of_strip.toCycleFrame.trans (release _)
  unfold Sys2Proof.Machine.stripHandOver
  split
  · split
    · exact release s
    · split
      · exact cleared.trans (.abandonCalibration ..)
      · split
        · exact cleared.trans (.abandonCalibration ..)
        · exact CycleKeeps.of_strip.toCycleFrame
  · exact release s

theorem CycleFrame.routeCut (id : Nat) (blind : Bool) : CycleFrame s (routeCut id blind s) := by
  have release : ∀ t : State, CycleFrame t (t.releaseUnit id) := fun t => (CycleKeeps.of_queue fun _ => rfl).toCycleFrame
  unfold Sys2Proof.Machine.routeCut
  split
  · exact .refl s
  · next u _ =>
    split
    · exact CycleFrame.rejectPrint.trans (.stripHandOver ..)
    · have hread : CycleFrame s (match u.slot with | some i => Sys2Proof.Machine.readSlot i s | none => s) := by
        split
        · exact (CycleKeeps.readSlot _).toCycleFrame
        · exact .refl s
      dsimp only
      refine CycleFrame.trans ?_ (release _)
      split
      · exact (hread.trans .rejectPrint).trans (.voidGone u)
      · split
        · exact hread.trans .rejectPrint
        · split
          · exact (hread.trans (.placeGood ..)).trans (.completeIfDone _)
          · exact hread.trans .unclaimedPrint

/-- Only the Transit Tracker is changed: entries may leave the train, and the waiting marks stay. -/
theorem CycleFrame.mapTransit {f : Transit → Transit} (h : ∀ e ∈ (f s.transit).train, e ∈ s.transit.train)
    (hm : (f s.transit).waitingMarks = s.transit.waitingMarks) : CycleFrame s (s.mapTransit f) :=
  ⟨rfl, rfl, rfl, fun _ => rfl, rfl, rfl, h, hm, id, id⟩

theorem CycleFrame.headLeaves : CycleFrame s (headLeaves s) :=
  (CycleFrame.mapTransit (fun _ he => List.mem_of_mem_tail he) rfl).trans (CycleKeeps.removeHold (by decide)).toCycleFrame

theorem CycleFrame.countBlind (id : Nat) : CycleFrame s (countBlind id s) := by
  have hcount : CycleFrame s (s.mapTransit fun t => { t with consecutiveBlind := satUp t.consecutiveBlind 255 }) :=
    .mapTransit (fun _ he => he) rfl
  have hhold : ∀ t : State, CycleFrame t (t.addHold .cutterFault) := fun t =>
    ⟨rfl, rfl, by rw [State.addHold_holds]; rfl, fun _ => rfl, rfl, rfl, fun _ he => he, rfl, fun h => h, fun h => h⟩
  unfold Sys2Proof.Machine.countBlind
  dsimp only
  split
  · exact (hcount.trans (hhold _)).trans (CycleKeeps.raise _ (by decide)).toCycleFrame
  · exact hcount

theorem CycleFrame.normalCut (e : TrainEntry) : CycleFrame s (normalCut e s) :=
  ((CycleFrame.mapTransit (fun _ he => he) rfl).trans .headLeaves).trans (.routeCut ..)

theorem CycleFrame.blindCut (e : TrainEntry) : CycleFrame s (blindCut e s) :=
  (((((CycleFrame.mapTransit (fun _ he => he) rfl).trans (CycleKeeps.spoilReport _).toCycleFrame).trans
    (.countBlind _)).trans (.mapTransit (fun _ he => he) rfl)).trans .headLeaves).trans (.routeCut ..)

theorem CycleFrame.expireHeads (n : Nat) : CycleFrame s (expireHeads n s) := by
  induction n generalizing s with
  | zero => exact .refl s
  | succ n ih =>
    unfold Sys2Proof.Machine.expireHeads
    split
    · exact .refl s
    · split
      · exact (CycleFrame.blindCut _).trans ih
      · exact .refl s

/-- A mark is decided at once when no figures are pending (R100). -/
theorem CycleFrame.decideMark (p : Word32) (set : ∀ e ∈ s.transit.train, e.figures.isSome = true) :
    CycleFrame s (decideMark p s) := by
  unfold Sys2Proof.Machine.decideMark
  split
  · exact .mapTransit (fun _ he => he) rfl
  · next e rest htrain =>
    split
    · next hnone =>
      have := set e (by rw [htrain]; exact List.mem_cons_self)
      rw [hnone] at this
      cases this
    · split
      · exact .normalCut e
      · exact .mapTransit (fun _ he => he) rfl

theorem CycleFrame.decideMarks (marks : List Word32) (set : ∀ e ∈ s.transit.train, e.figures.isSome = true) :
    CycleFrame s (marks.foldl (fun s p => Sys2Proof.Machine.decideMark p s) s) := by
  induction marks generalizing s with
  | nil => exact .refl s
  | cons p marks ih =>
    have hfirst := CycleFrame.decideMark p set
    exact hfirst.trans (ih fun e he => set e (hfirst.train e he))

theorem CycleFrame.timeoutSlot (i : Nat) : CycleFrame s (timeoutSlot i s) := by
  unfold Sys2Proof.Machine.timeoutSlot
  split
  · dsimp only
    split
    · refine ((CycleKeeps.readSlot i).toCycleFrame.trans (.freeSlot i)).trans ?_
      exact ⟨rfl, rfl, rfl, fun _ => rfl, rfl, rfl, fun _ he => he, rfl, fun h => h, fun h => h⟩
    · exact (CycleKeeps.readSlot i).toCycleFrame
  · exact .refl s

end

end Sys2Proof.Machine
end

section
/-! The end of a write cycle (R183; O56). -/

namespace Sys2Proof.Machine

/-! ### The due comparisons (R144) -/

/-- Whether the comparison of surface `k` is made and finds it newly due (R144). -/
def State.foundDue (s : State) (all : Bool) (k : Nat) : Bool :=
  (all || (s.surface k).checkWaiting) && !(s.surface k).due && !s.store.calibration.bad
    && s.store.calibration.interval k != 0 && decide (s.store.calibration.interval k ≤ (s.surface k).counter)

/-- A surface after its comparison. -/
def State.comparedSurface (s : State) (all : Bool) (k : Nat) : SurfaceCal :=
  { s.surface k with due := (s.surface k).due || s.foundDue all k, checkWaiting := false }

/-- The surfaces with the comparisons below `n` made. -/
def State.comparedBelow (s : State) (all : Bool) (n : Nat) : List SurfaceCal :=
  s.cal.surfaces.mapIdx fun k r => if k < n then s.comparedSurface all k else r

/-- The state with other surfaces, and with CAL_DUE raised and the engine signalled for the surfaces of `new`. -/
def State.withDue (s : State) (surfaces : List SurfaceCal) (new : List Nat) : State :=
  { s with
    cal := { s.cal with surfaces }
    notices := new.foldl (fun n k => n.raise .calDue k) s.notices
    queue := { s.queue with signal := s.queue.signal || !new.isEmpty } }

theorem comparedBelow_set (s : State) (all : Bool) (n : Nat) :
    (s.comparedBelow all n).set n (s.comparedSurface all n) = s.comparedBelow all (n + 1) := by
  apply List.ext_getElem?
  intro k
  rw [List.getElem?_set]
  simp only [State.comparedBelow, List.getElem?_mapIdx, List.length_mapIdx]
  by_cases hk : n = k
  · subst hk
    by_cases hn : n < s.cal.surfaces.length
    · simp [hn]
    · simp [hn]
  · rw [if_neg hk]
    congr 1
    funext r
    exact if_congr (by omega) rfl rfl

/-- A surface not yet compared reads as it was. -/
theorem surface_comparedBelow (s : State) (all : Bool) {n k : Nat} (h : n ≤ k) (new : List Nat) :
    (s.withDue (s.comparedBelow all n) new).surface k = s.surface k := by
  have hk : ¬ k < n := by omega
  simp only [State.surface, State.withDue, State.comparedBelow, List.getD_eq_getElem?_getD, List.getElem?_mapIdx, hk,
    if_false, Option.map_id']

theorem set_surface_self (s : State) (k : Nat) : s.cal.surfaces.set k (s.surface k) = s.cal.surfaces := by
  apply List.ext_getElem?
  intro j
  rw [List.getElem?_set]
  split
  · next hkj =>
    subst hkj
    split
    · next hk => rw [State.surface, List.getD_eq_getElem _ _ hk, List.getElem?_eq_getElem hk]
    · next hk => rw [List.getElem?_eq_none (Nat.le_of_not_lt hk)]
  · rfl

/-- With nothing newly due only the surfaces change. -/
theorem withDue_nil (s : State) (surfaces : List SurfaceCal) :
    s.withDue surfaces [] = { s with cal := { s.cal with surfaces } } := by
  unfold State.withDue
  rw [show (s.queue.signal || !([] : List Nat).isEmpty) = s.queue.signal by simp]
  rfl

theorem withDue_one (s : State) (surfaces : List SurfaceCal) (k : Nat) :
    s.withDue surfaces [k] = (({ s with cal := { s.cal with surfaces } } : State).raise .calDue k).signal := by
  unfold State.withDue
  rw [show (s.queue.signal || !([k] : List Nat).isEmpty) = true by simp]
  rfl

/-- One comparison (R144). -/
theorem dueComparison_eq (s : State) (all : Bool) (k : Nat) :
    (if all || (s.surface k).checkWaiting then dueComparison k s else s) =
      s.withDue (s.cal.surfaces.set k (s.comparedSurface all k)) (if s.foundDue all k then [k] else []) := by
  by_cases made : (all || (s.surface k).checkWaiting) = true
  · rw [if_pos made]
    unfold dueComparison
    dsimp only
    cases found : s.foundDue all k with
    | true =>
      have htests : ¬ (s.store.calibration.bad || (s.surface k).due || s.store.calibration.interval k == 0
          || decide ((s.surface k).counter < s.store.calibration.interval k)) = true := by
        simp [State.foundDue] at found ⊢
        tauto
      rw [if_neg htests, if_pos rfl, withDue_one]
      unfold State.comparedSurface State.setSurface
      rw [found, Bool.or_true]
      dsimp only
      rw [List.set_set]
    | false =>
      have htests : (s.store.calibration.bad || (s.surface k).due || s.store.calibration.interval k == 0
          || decide ((s.surface k).counter < s.store.calibration.interval k)) = true := by
        simp [State.foundDue] at found made ⊢
        by_contra hnone
        simp only [not_or] at hnone
        have := found made
        simp_all
      rw [if_pos htests, if_neg (by simp), withDue_nil]
      unfold State.comparedSurface State.setSurface
      rw [found, Bool.or_false]
  · have hwaiting : (s.surface k).checkWaiting = false := by simp_all
    have found : s.foundDue all k = false := by simp_all [State.foundDue]
    have hself : s.comparedSurface all k = s.surface k := by
      unfold State.comparedSurface
      rw [found, Bool.or_false, ← hwaiting]
    rw [if_neg made, found, if_neg (by simp), hself, set_surface_self, withDue_nil]

theorem withDue_withDue (s : State) (surfaces after : List SurfaceCal) (new more : List Nat) :
    (s.withDue surfaces new).withDue after more = s.withDue after (new ++ more) := by
  unfold State.withDue
  rw [List.foldl_append, show (s.queue.signal || !(new ++ more).isEmpty) =
    (s.queue.signal || !new.isEmpty || !more.isEmpty) by cases new <;> simp]

/-- The comparison of the next surface, the ones below being made. -/
theorem dueComparison_next (s : State) (all : Bool) (n : Nat) :
    let t := s.withDue (s.comparedBelow all n) ((List.range n).filter (s.foundDue all))
    (if all || (t.surface n).checkWaiting then dueComparison n t else t) =
      s.withDue (s.comparedBelow all (n + 1)) ((List.range (n + 1)).filter (s.foundDue all)) := by
  intro t
  have hsurface : t.surface n = s.surface n := surface_comparedBelow s all (Nat.le_refl n) _
  have hfound : t.foundDue all n = s.foundDue all n := by
    unfold State.foundDue
    rw [hsurface]
    rfl
  have hcompared : t.comparedSurface all n = s.comparedSurface all n := by
    unfold State.comparedSurface
    rw [hsurface, hfound]
  rw [dueComparison_eq, hcompared, hfound, ← comparedBelow_set, List.range_succ, List.filter_append, List.filter_singleton,
    Bool.cond_eq_ite]
  exact withDue_withDue ..

theorem dueComparisons_eq (s : State) (all : Bool) :
    dueComparisons all s = s.withDue (s.comparedBelow all 4) ((List.range 4).filter (s.foundDue all)) := by
  have below : ∀ n, (List.range n).foldl
      (fun s u => if all || (s.surface u).checkWaiting then dueComparison u s else s) s =
        s.withDue (s.comparedBelow all n) ((List.range n).filter (s.foundDue all)) := by
    intro n
    induction n with
    | zero =>
      have hsame : s.comparedBelow all 0 = s.cal.surfaces := by
        apply List.ext_getElem?
        intro k
        simp [State.comparedBelow]
      rw [hsame]
      exact (withDue_nil s s.cal.surfaces).symm
    | succ n ih =>
      rw [List.range_succ, List.foldl_append, ih, ← List.range_succ]
      exact dueComparison_next s all n
  exact below 4

/-! ### The pending figures, the drafts and the pricing pass (R11, R99, R130) -/

/-- The train with its pending figures set and no mark waiting, before the waiting marks are decided (R99). -/
def State.figuresSet (s : State) : State :=
  s.mapTransit fun t => { t with
    waitingMarks := []
    train := t.train.map fun e => match e.figures with
      | some _ => e
      | none => { e with figures := some (cutFigures s.store.general e.mark) } }

theorem figuresSet_train {s : State} : ∀ e ∈ s.figuresSet.transit.train, e.figures.isSome = true := by
  intro e he
  obtain ⟨e', -, rfl⟩ := List.mem_map.mp he
  obtain ⟨unit, mark, figures⟩ := e'
  cases figures <;> rfl

theorem setPendingFigures_eq (s : State) :
    setPendingFigures s = expireAll (s.transit.waitingMarks.foldl (fun s p => decideMark p s) s.figuresSet) := rfl

theorem CycleFrame.setPendingFigures (s : State) : CycleFrame s.figuresSet (setPendingFigures s) := by
  rw [setPendingFigures_eq]
  exact (CycleFrame.decideMarks _ figuresSet_train).trans (.expireHeads _)

/-- The draft comparison that is owed is made, and nothing is owed then. -/
theorem CycleFrame.draftTimeouts {s : State} (idle : s.cycleRuns = false) :
    CycleFrame { s with orders := { s.orders with draftCheckDue := false } } (draftTimeouts s) := by
  unfold Sys2Proof.Machine.draftTimeouts
  split
  · have h : CycleFrame s (slotIndexes.foldl (fun s i => Sys2Proof.Machine.timeoutSlot i s) s) :=
      .foldl (fun _ i => CycleFrame.timeoutSlot i) slotIndexes s
    generalize slotIndexes.foldl (fun s i => Sys2Proof.Machine.timeoutSlot i s) s = t at h ⊢
    exact ⟨h.threshold, h.capacity, h.sheetBad, h.surfaces, h.calDue, rfl, h.train, h.marks, h.signal, h.clean⟩
  · next due =>
    have hdrafts : s.orders.draftCheckDue = false := by simpa [idle] using due
    exact ⟨rfl, rfl, rfl, fun _ => rfl, rfl, hdrafts, fun _ he => he, rfl, id, id⟩

/-- On clean storage with the PRICE sheet good a priced slot is not in COMPLETE, and no other slot enters it (R130). -/
theorem priceSlot_complete {s : State} (clean : CleanStorage s) (good : s.store.price.bad = false) {i k : Nat} {o : Order}
    (ho : (priceSlot i s).order? k = some o) (hc : o.state = .complete) : k ≠ i ∧ s.order? k = some o := by
  have hbad : ¬ s.store.price.bad = true := by simp [good]
  have untouched (same : priceSlot i s = s) (hi : ∀ x, s.order? i = some x → x.state ≠ .complete) :
      k ≠ i ∧ s.order? k = some o := by
    rw [same] at ho
    exact ⟨fun hki => hi o (hki ▸ ho) hc, ho⟩
  cases hi : s.order? i with
  | none => exact untouched (by simp only [priceSlot, if_neg hbad, hi]) (by simp [hi])
  | some x =>
    by_cases hx : x.state = .complete
    · have hset : priceSlot i s = s.setOrder i { x with state := .ready, price := some (priceOf s.store.price x) } := by
        simp only [priceSlot, if_neg hbad, hi, if_pos hx, readSlot_clean clean]
      have hk := order?_set (order?_lt hi) (congrArg (fun t => t.orders.slots) hset) k
      rw [ho] at hk
      split at hk
      · cases hk
        cases hc
      · next hne => exact ⟨hne, hk.symm⟩
    · exact untouched (by simp only [priceSlot, if_neg hbad, hi, if_neg hx]) (by simp [hi, hx])

/-- On clean storage with the PRICE sheet good a pricing pass leaves no order in COMPLETE (R130). -/
theorem pricingPass_complete {s : State} (clean : CleanStorage s) (good : s.store.price.bad = false)
    (hlen : s.orders.slots.length = 64) {k : Nat} {o : Order} (ho : (pricingPass s).order? k = some o) :
    o.state ≠ .complete := by
  have passed : ∀ (l : List Nat) (s : State), CleanStorage s → s.store.price.bad = false → ∀ o : Order,
      (l.foldl (fun s i => priceSlot i s) s).order? k = some o → o.state = .complete → k ∉ l ∧ s.order? k = some o := by
    intro l
    induction l with
    | nil => exact fun s _ _ o ho _ => ⟨List.not_mem_nil, ho⟩
    | cons i l ih =>
      intro s clean good o ho hc
      have hstore : (priceSlot i s).store = s.store := (Leaves.refl s).after_priceSlot.store
      obtain ⟨hout, hfirst⟩ := ih (priceSlot i s) ((CycleFrame.priceSlot i).clean clean) (by rw [hstore, good]) o ho hc
      obtain ⟨hne, hwas⟩ := priceSlot_complete clean good hfirst hc
      exact ⟨List.not_mem_cons_of_ne_of_not_mem hne hout, hwas⟩
  intro hc
  obtain ⟨hout, hwas⟩ := passed slotIndexes s clean good o ho hc
  exact hout (List.mem_range.mpr (lt_of_lt_of_eq (order?_lt hwas) hlen))

/-! ### The end of a write cycle (R183; O56) -/

/-- A write cycle's sheet at its end, in the store with no cycle. -/
def State.cycleDone (s : State) (c : WriteCycle) : State :=
  { s with store := { s.store.setSheet c.sheet (s.store.sheet c.sheet).cycleEnded with cycle := none } }

/-- The copies that follow a written GENERAL sheet (R112, R177). -/
def State.copiesRead (s : State) (c : WriteCycle) : State :=
  if c.sheet = .general then readCopies (s.cycleDone c) else s.cycleDone c

/-- What waited on the cycle inside the blocks, before the due comparisons and the sheet's follow-ups (R183). -/
def State.waitedDone (s : State) (c : WriteCycle) : State :=
  let priced := pricingPass (draftTimeouts (setPendingFigures (s.copiesRead c)))
  runTrials (if c.sheet = .size then priced.oweTrial else priced)

theorem endCycle_eq {s : State} {c : WriteCycle} (h : s.store.cycle = some c) :
    endCycle s = sheetFollowUps c.sheet (dueComparisons (c.sheet == .calibration) (s.waitedDone c)) := by
  unfold endCycle
  rw [h]
  rfl

/-- What the work that waited on the cycle inside the blocks gives. -/
structure WaitedDone (s : State) (c : WriteCycle) (t : State) : Prop where
  outer     : Outer (s.cycleDone c) t
  threshold : t.memory.threshold = (s.copiesRead c).memory.threshold
  capacity  : t.sorter.capacity = (s.copiesRead c).sorter.capacity
  sheetBad  : t.engine.holds.sheetBad = s.engine.holds.sheetBad
  surfaces  : ∀ k, (t.surface k).dueFigures = (s.surface k).dueFigures
  calDue    : t.notices.kinds[8]? = s.notices.kinds[8]?
  drafts    : t.orders.draftCheckDue = false
  figures   : ∀ e ∈ t.transit.train, e.figures.isSome = true
  marks     : t.transit.waitingMarks = []
  clean     : CleanStorage s → CleanStorage t
  complete  : CleanStorage s → t.store.price.bad = false → s.orders.slots.length = 64 →
    ∀ i o, t.order? i = some o → o.state ≠ .complete

theorem copiesRead_leaves (s : State) (c : WriteCycle) : Leaves (s.cycleDone c) (s.copiesRead c) := by
  unfold State.copiesRead
  split
  · exact (Leaves.refl _).after_readCopies
  · exact Leaves.refl _

/-- Reading the copies changes nothing but the copies. -/
theorem copiesRead_same (s : State) (c : WriteCycle) :
    (s.copiesRead c).engine = s.engine ∧ (s.copiesRead c).cal = s.cal ∧ (s.copiesRead c).notices = s.notices
      ∧ (s.copiesRead c).orders = s.orders ∧ (CleanStorage s → CleanStorage (s.copiesRead c)) := by
  unfold State.copiesRead
  split
  · exact ⟨rfl, rfl, rfl, rfl, id⟩
  · exact ⟨rfl, rfl, rfl, rfl, id⟩

theorem waitedDone_spec (s : State) (c : WriteCycle) : WaitedDone s c (s.waitedDone c) := by
  obtain ⟨hengine, hcal, hnotices, horders, hclean⟩ := copiesRead_same s c
  have frameFigures := CycleFrame.setPendingFigures (s.copiesRead c)
  have outerFigures := (copiesRead_leaves s c).keeps.after_setPendingFigures
  have idle : (setPendingFigures (s.copiesRead c)).cycleRuns = false := by
    rw [State.cycleRuns, outerFigures.store]
    rfl
  have frameDrafts := CycleFrame.draftTimeouts idle
  have outerDrafts := outerFigures.on (Leaves.refl _).after_draftTimeouts
  have frameTrials (t : State) : CycleKeeps t (runTrials (if c.sheet = .size then t.oweTrial else t)) := by
    refine CycleKeeps.trans ?_ .runTrials
    split
    · exact .oweTrial
    · exact .refl t
  have outerTrials (t : State) : Leaves t (runTrials (if c.sheet = .size then t.oweTrial else t)) := by
    apply Leaves.after_runTrials
    split
    · exact (Leaves.refl t).after_oweTrial
    · exact Leaves.refl t
  unfold State.waitedDone
  dsimp only
  generalize setPendingFigures (s.copiesRead c) = t1 at *
  generalize draftTimeouts t1 = t2 at *
  have framePriced : CycleFrame t2 (pricingPass t2) := .pricingPass
  have outerPriced := outerDrafts.on (Leaves.refl _).after_pricingPass
  have rest := framePriced.trans (frameTrials (pricingPass t2)).toCycleFrame
  have outerAll := outerPriced.on (outerTrials (pricingPass t2))
  have cleanDrafts : CleanStorage s → CleanStorage t2 := fun clean => frameDrafts.clean (frameFigures.clean (hclean clean))
  refine ⟨outerAll.toOuter, ?_, ?_, ?_, fun k => ?_, ?_, ?_, ?_, ?_, ?_, ?_⟩
  · rw [rest.threshold, frameDrafts.threshold]
    exact frameFigures.threshold
  · rw [rest.capacity, frameDrafts.capacity]
    exact frameFigures.capacity
  · rw [rest.sheetBad, frameDrafts.sheetBad, ← hengine]
    exact frameFigures.sheetBad
  · rw [rest.surfaces k, frameDrafts.surfaces k, show s.surface k = (s.copiesRead c).surface k by
      rw [State.surface, State.surface, hcal]]
    exact frameFigures.surfaces k
  · rw [rest.calDue, frameDrafts.calDue, ← hnotices]
    exact frameFigures.calDue
  · exact rest.drafts.trans frameDrafts.drafts
  · exact fun e he => figuresSet_train e (frameFigures.train e (frameDrafts.train e (rest.train e he)))
  · exact rest.marks.trans (frameDrafts.marks.trans frameFigures.marks)
  · exact fun clean => rest.clean (cleanDrafts clean)
  · intro clean good hlen i o ho hc
    have cleanPriced := framePriced.clean (cleanDrafts clean)
    obtain ⟨o', ho', hc'⟩ := (frameTrials _).complete cleanPriced i o ho hc
    have hgood : t2.store.price.bad = false := by
      rw [outerDrafts.store, ← outerAll.store]
      exact good
    have hslots : t2.orders.slots.length = 64 := by
      have hshape := congrArg List.head? outerDrafts.shape
      exact (Option.some.inj hshape).trans hlen
    exact pricingPass_complete (cleanDrafts clean) hgood hslots ho' hc'

/-- SHEET_BAD goes when SIZE or CALIBRATION was written and both are good (R72). -/
def State.sheetHoldAfter (s : State) (name : SheetName) : State :=
  s.mapEngine fun e => { e with holds := { e.holds with
    sheetBad := e.holds.sheetBad
      && !((name == .size || name == .calibration) && !s.store.size.bad && !s.store.calibration.bad) } }

theorem sheetHoldAfter_eq (s : State) (name : SheetName) :
    (if (name = .size ∨ name = .calibration) ∧ s.store.holdsEngine = false then
      s.mapEngine fun e => { e with holds := e.holds.put .sheetBad false } else s) = s.sheetHoldAfter name := by
  have hgoes : ((name = .size ∨ name = .calibration) ∧ s.store.holdsEngine = false) ↔
      ((name == .size || name == .calibration) && !s.store.size.bad && !s.store.calibration.bad) = true := by
    simp [SettingsStore.holdsEngine]
    tauto
  unfold State.sheetHoldAfter
  split
  · next h =>
    rw [hgoes.mp h, Bool.not_true, State.mapEngine]
    simp only [Bool.and_false]
    rfl
  · next h =>
    rw [Bool.eq_false_iff.mpr fun hb => h (hgoes.mpr hb), Bool.not_false]
    simp only [Bool.and_true]
    rfl

theorem CycleKeeps.sheetFollowUps (name : SheetName) (s : State) :
    CycleKeeps (s.sheetHoldAfter name) (sheetFollowUps name s) := by
  have signalled (r t : State) (h : CycleKeeps r t) :
      CycleKeeps r (if name = .calibration ∨ name = .general then t.signal else t) := by
    split
    · exact h.trans (.of_queue fun _ => rfl)
    · exact h
  rw [← sheetHoldAfter_eq]
  unfold Sys2Proof.Machine.sheetFollowUps
  refine signalled _ _ ?_
  split
  · exact .removeHold_rest .sheetBad
  · exact .refl s

theorem sheetFollowUps_signal {name : SheetName} (h : name = .calibration ∨ name = .general) (s : State) :
    (sheetFollowUps name s).queue.signal = true := by
  unfold sheetFollowUps
  dsimp only
  rw [if_pos h]
  rfl

/-- The end of a step before the signal is taken back. -/
def State.settled (s : State) : State := runTrials (answerSignal (runTrials s))

theorem settle_eq (s : State) : settle s = { s.settled with queue := { s.settled.queue with signal := false } } := rfl

theorem CycleKeeps.settled (s : State) : CycleKeeps s s.settled := (CycleKeeps.runTrials.trans .answerSignal).trans .runTrials

/-- With no cycle running a trial that is owed is made. -/
theorem runTrials_trialDue {s : State} (idle : s.cycleRuns = false) : (runTrials s).orders.trialDue = false := by
  cases due : s.orders.trialDue with
  | true => rw [runTrials_due due idle]
  | false => rw [runTrials_none due, due]

theorem settle_trialDue {s : State} (idle : s.store.cycle = none) : (settle s).orders.trialDue = false := by
  have hstore : (answerSignal (runTrials s)).store = s.store :=
    ((Leaves.refl s).after_runTrials.keeps.after_answerSignal).store
  refine runTrials_trialDue (s := answerSignal (runTrials s)) ?_
  rw [State.cycleRuns, hstore, idle]
  rfl

/-- CAL_DUE raised for each surface of a list (R144). -/
theorem raised_calDue (new : List Nat) (n : NoticeUnit) :
    (new.foldl (fun n k => n.raise .calDue k) n).kinds[8]? =
      (n.kinds[8]?).map fun x => new.foldl (fun x k => x.raised k) x := by
  induction new generalizing n with
  | nil => exact Option.map_id'.symm
  | cons k new ih =>
    rw [List.foldl_cons, ih, show (n.raise .calDue k).kinds = n.kinds.modify 8 fun x => x.raised k from rfl,
      List.getElem?_modify_eq]
    exact Option.map_map ..

/-- The comparison of a surface rests on its due state and the store. -/
theorem foundDue_congr {s t : State} {all : Bool} {k : Nat} (hs : (t.surface k).dueFigures = (s.surface k).dueFigures) :
    t.foundDue all k = ((all || (s.surface k).checkWaiting) && !(s.surface k).due && !t.store.calibration.bad
      && t.store.calibration.value (44 + k) != 0
      && decide (t.store.calibration.value (44 + k) ≤ (s.surface k).counter)) := by
  simp only [SurfaceCal.dueFigures, Prod.mk.injEq] at hs
  obtain ⟨hcounter, hdue, hwaiting⟩ := hs
  simp only [State.foundDue, Sheet.interval, hcounter, hdue, hwaiting]

/-- The surfaces after the due comparisons (R143, R144). -/
theorem dueComparisons_surface {s : State} {all : Bool} {k : Nat} (hk : k < 4) (hlen : s.cal.surfaces.length = 4) :
    (dueComparisons all s).surface k = s.comparedSurface all k := by
  rw [dueComparisons_eq]
  simp [State.surface, State.withDue, State.comparedBelow, hk, hlen]

/-- Settles O56: each block's work leaves what the others decide (`CycleKeeps`), so every item is what its own block
made it (`WaitedDone`, `State.withDue`, `State.sheetHoldAfter`). -/
theorem cycleEndDoesWhatWaited : Obligations.CycleEndDoesWhatWaited := by
  unfold Obligations.CycleEndDoesWhatWaited
  intro s running
  refine ⟨fun none => ?_, fun c hc => ?_⟩
  · have hsame : endCycle s = s := by
      unfold endCycle
      rw [none]
    exact congrArg Host.Outcome.next (whileOnActing_calm running.power hsame running.noSignal running.noTrial)
  intro sheet good u t
  have done := waitedDone_spec s c
  have hu : u = sheetFollowUps c.sheet (dueComparisons (c.sheet == .calibration) (s.waitedDone c)) := endCycle_eq hc
  have ht : t = { u.settled with queue := { u.settled.queue with signal := false } } := settle_eq u
  have hlength : (s.waitedDone c).cal.surfaces.length = s.cal.surfaces.length :=
    Option.some.inj (congrArg (fun l => l[4]?) done.outer.shape)
  generalize s.waitedDone c = w at done hu hlength
  have outer : Outer (s.cycleDone c) t :=
    done.outer.trans (hu ▸ ((Keeps.refl w).on (Leaves.refl _).after_dueComparisons).after_sheetFollowUps.after_settle).toOuter
  have hstore : t.store = (s.cycleDone c).store := outer.store
  have hstoreW : w.store = t.store := done.outer.store.trans hstore.symm
  have follow : CycleKeeps ((dueComparisons (c.sheet == .calibration) w).sheetHoldAfter c.sheet) u :=
    hu ▸ CycleKeeps.sheetFollowUps c.sheet (dueComparisons (c.sheet == .calibration) w)
  have hd := dueComparisons_eq w (c.sheet == .calibration)
  have hsurface {k : Nat} (hk : k < 4) (hlen : w.cal.surfaces.length = 4) :
      (dueComparisons (c.sheet == .calibration) w).surface k = w.comparedSurface (c.sheet == .calibration) k :=
    dueComparisons_surface hk hlen
  generalize dueComparisons (c.sheet == .calibration) w = d at hu hd follow hsurface
  have kept := follow.trans (.settled u)
  have hheld : d.sheetHoldAfter c.sheet = (w.withDue (w.comparedBelow (c.sheet == .calibration) 4)
      ((List.range 4).filter (w.foundDue (c.sheet == .calibration)))).sheetHoldAfter c.sheet := by rw [hd]
  have hsignal : (List.range 4).filter (w.foundDue (c.sheet == .calibration)) ≠ [] → u.queue.signal = true := by
    intro hnew
    refine follow.signal ?_
    rw [hheld]
    show (w.queue.signal || !List.isEmpty _) = true
    simp [hnew]
  have hidle : u.store.cycle = none := by
    have hsettled : t.store = u.store := (Keeps.refl u).after_settle.store
    rw [← hsettled, hstore]
    rfl
  have hthreshold : t.memory.threshold = (s.copiesRead c).memory.threshold := by
    refine kept.threshold.trans ?_
    rw [hheld]
    exact done.threshold
  have hcapacity : t.sorter.capacity = (s.copiesRead c).sorter.capacity := by
    refine kept.capacity.trans ?_
    rw [hheld]
    exact done.capacity
  have hfound : w.foundDue (c.sheet == .calibration) = fun k =>
      ((c.sheet == .calibration || (s.surface k).checkWaiting) && !(s.surface k).due && !t.store.calibration.bad
        && t.store.calibration.value (44 + k) != 0
        && decide (t.store.calibration.value (44 + k) ≤ (s.surface k).counter)) := by
    funext k
    rw [foundDue_congr (done.surfaces k), hstoreW]
  refine ⟨congrArg Host.Outcome.next (whileOnActing_on running.power), hstore, fun general => ?_, fun other => ?_, ?_,
    fun signals => hu ▸ sheetFollowUps_signal signals d, fun hlen => ⟨fun k hk => ?_, ?_, ?_⟩, ?_, settle_trialDue hidle,
    rfl, fun e he => ?_, ?_, fun clean price hlen i o ho => ?_, outer.link, outer.clock, outer.power⟩
  · rw [hthreshold, hcapacity, State.copiesRead, if_pos general, hstore]
    exact ⟨rfl, rfl⟩
  · rw [hthreshold, hcapacity, State.copiesRead, if_neg other]
    exact ⟨rfl, rfl⟩
  · refine kept.sheetBad.trans ?_
    rw [hheld, ← hstoreW, ← done.sheetBad]
    rfl
  · have hafter : (t.surface k).dueFigures = (w.comparedSurface (c.sheet == .calibration) k).dueFigures := by
      rw [← hsurface hk (hlength.trans hlen)]
      exact kept.surfaces k
    have hbefore := done.surfaces k
    simp only [SurfaceCal.dueFigures, State.comparedSurface, Prod.mk.injEq] at hafter hbefore
    obtain ⟨hcounter, hdue, hwaiting⟩ := hafter
    refine ⟨?_, hcounter.trans hbefore.1, hwaiting⟩
    rw [hdue, hbefore.2.1, hfound]
  · refine kept.calDue.trans ?_
    rw [hheld]
    refine (raised_calDue _ _).trans ?_
    rw [done.calDue, hfound]
    rfl
  · rw [← hfound]
    exact hsignal
  · refine kept.drafts.trans ?_
    rw [hheld]
    exact done.drafts
  · have hin := kept.train e he
    rw [hheld] at hin
    exact done.figures e hin
  · refine kept.marks.trans ?_
    rw [hheld]
    exact done.marks
  · intro hc
    have cleanHeld : CleanStorage (d.sheetHoldAfter c.sheet) := by
      rw [hheld]
      exact done.clean clean
    obtain ⟨o', ho', hc'⟩ := kept.complete cleanHeld i o ho hc
    rw [hheld] at ho'
    exact done.complete clean (hstoreW ▸ price) hlen i o' ho' hc'

end Sys2Proof.Machine
end

section
/-! The link's phase is no matter for a request's decision (R162; for O57). -/

namespace Sys2Proof.Machine

/-- The state with its link in another phase (R162). -/
def State.withPhase (s : State) (p : LinkPhase) : State := s.mapLink fun k => { k with phase := p }

/-- The same of a state that an operation returns with a result. -/
def inPhase {α : Type} (p : LinkPhase) (r : α × State) : α × State := (r.1, r.2.withPhase p)

section
variable (s : State) (p : LinkPhase)

@[simp] theorem inPhase_mk {α : Type} (a : α) : inPhase p (a, s) = (a, s.withPhase p) := rfl
@[simp] theorem inPhase_fst {α : Type} (r : α × State) : (inPhase p r).1 = r.1 := rfl
@[simp] theorem inPhase_snd {α : Type} (r : α × State) : (inPhase p r).2 = r.2.withPhase p := rfl

theorem withPhase_ite (c : Prop) [Decidable c] (s t : State) (p : LinkPhase) :
    (if c then s else t).withPhase p = if c then s.withPhase p else t.withPhase p := apply_ite (State.withPhase · p) c s t

theorem inPhase_ite {α : Type} (c : Prop) [Decidable c] (r t : α × State) (p : LinkPhase) :
    inPhase p (if c then r else t) = if c then inPhase p r else inPhase p t := apply_ite (inPhase p) c r t

@[simp] theorem withPhase_power : (s.withPhase p).power = s.power := rfl
@[simp] theorem withPhase_orders : (s.withPhase p).orders = s.orders := rfl
@[simp] theorem withPhase_clock : (s.withPhase p).clock = s.clock := rfl
@[simp] theorem withPhase_memory : (s.withPhase p).memory = s.memory := rfl
@[simp] theorem withPhase_queue : (s.withPhase p).queue = s.queue := rfl
@[simp] theorem withPhase_engine : (s.withPhase p).engine = s.engine := rfl
@[simp] theorem withPhase_transit : (s.withPhase p).transit = s.transit := rfl
@[simp] theorem withPhase_sorter : (s.withPhase p).sorter = s.sorter := rfl
@[simp] theorem withPhase_cal : (s.withPhase p).cal = s.cal := rfl
@[simp] theorem withPhase_notices : (s.withPhase p).notices = s.notices := rfl
@[simp] theorem withPhase_store : (s.withPhase p).store = s.store := rfl
@[simp] theorem withPhase_draws : (s.withPhase p).draws = s.draws := rfl
@[simp] theorem withPhase_pending : (s.withPhase p).pending = s.pending := rfl

@[simp] theorem withPhase_order? (i : Nat) : (s.withPhase p).order? i = s.order? i := rfl
@[simp] theorem withPhase_findOrder (n : Nat) : (s.withPhase p).findOrder n = s.findOrder n := rfl
@[simp] theorem withPhase_unit? (id : Nat) : (s.withPhase p).unit? id = s.unit? id := rfl
@[simp] theorem withPhase_unitOrder (u : PrintUnit) : (s.withPhase p).unitOrder u = s.unitOrder u := rfl
@[simp] theorem withPhase_soundOrder (u : PrintUnit) : (s.withPhase p).soundOrder u = s.soundOrder u := rfl
@[simp] theorem withPhase_unitDamaged (u : PrintUnit) : (s.withPhase p).unitDamaged u = s.unitDamaged u := rfl
@[simp] theorem withPhase_figures? (i : Nat) : (s.withPhase p).figures? i = s.figures? i := rfl
@[simp] theorem withPhase_queuedWhere (test : PrintUnit → Bool) :
    (s.withPhase p).queuedWhere test = s.queuedWhere test := rfl
@[simp] theorem withPhase_cycleRuns : (s.withPhase p).cycleRuns = s.cycleRuns := rfl
@[simp] theorem withPhase_shopTime : (s.withPhase p).shopTime = s.shopTime := rfl
@[simp] theorem withPhase_surface (k : Nat) : (s.withPhase p).surface k = s.surface k := rfl
@[simp] theorem withPhase_bin (n : Nat) : (s.withPhase p).bin n = s.bin n := rfl

/-! ### Orders, units and the queue -/

@[simp] theorem setOrder_withPhase (i : Nat) (o : Order) :
    (s.withPhase p).setOrder i o = (s.setOrder i o).withPhase p := rfl
@[simp] theorem freeSlot_withPhase (i : Nat) : (s.withPhase p).freeSlot i = (s.freeSlot i).withPhase p := rfl
@[simp] theorem setUnit_withPhase (id : Nat) (u : PrintUnit) :
    (s.withPhase p).setUnit id u = (s.setUnit id u).withPhase p := rfl
@[simp] theorem signal_withPhase : (s.withPhase p).signal = s.signal.withPhase p := rfl
@[simp] theorem releaseUnit_withPhase (id : Nat) :
    (s.withPhase p).releaseUnit id = (s.releaseUnit id).withPhase p := rfl
@[simp] theorem leaveQueue_withPhase (ids : List Nat) :
    (s.withPhase p).leaveQueue ids = (s.leaveQueue ids).withPhase p := rfl
@[simp] theorem oweTrial_withPhase : (s.withPhase p).oweTrial = s.oweTrial.withPhase p := rfl
@[simp] theorem setFigures_withPhase (i : Nat) (e : Option FigureEntry) :
    (s.withPhase p).setFigures i e = (s.setFigures i e).withPhase p := rfl
@[simp] theorem raise_withPhase (kind : NoticeKind) (detail : Nat) :
    (s.withPhase p).raise kind detail = (s.raise kind detail).withPhase p := rfl
@[simp] theorem addHold_withPhase (reason : HoldReason) :
    (s.withPhase p).addHold reason = (s.addHold reason).withPhase p := rfl

/-- A fold of operations that do not read the phase. -/
theorem foldl_withPhase {α : Type} {f : State → α → State}
    (hf : ∀ s a, f (s.withPhase p) a = (f s a).withPhase p) (l : List α) :
    l.foldl f (s.withPhase p) = (l.foldl f s).withPhase p := by
  induction l generalizing s with
  | nil => rfl
  | cons a l ih => rw [List.foldl_cons, hf, ih, List.foldl_cons]

@[simp] theorem modifyOrder_withPhase (i : Nat) (f : Order → Order) :
    (s.withPhase p).modifyOrder i f = (s.modifyOrder i f).withPhase p := by
  simp only [State.modifyOrder, withPhase_order?]
  split <;> simp

@[simp] theorem modifyUnit_withPhase (id : Nat) (f : PrintUnit → PrintUnit) :
    (s.withPhase p).modifyUnit id f = (s.modifyUnit id f).withPhase p := by
  simp only [State.modifyUnit, withPhase_unit?]
  split <;> simp

@[simp] theorem releaseUnits_withPhase (ids : List Nat) :
    (s.withPhase p).releaseUnits ids = (s.releaseUnits ids).withPhase p :=
  foldl_withPhase s p (fun _ _ => rfl) ids

@[simp] theorem makeUnit_withPhase (u : PrintUnit) : (s.withPhase p).makeUnit u = inPhase p (s.makeUnit u) := by
  simp only [State.makeUnit, withPhase_queue]
  split <;> simp

@[simp] theorem makeUnits_withPhase (us : List PrintUnit) : (s.withPhase p).makeUnits us = inPhase p (s.makeUnits us) := by
  rw [makeUnits_eq, makeUnits_eq]
  rfl

@[simp] theorem joinTail_withPhase (cls : OrderClass) (ids : List Nat) :
    (s.withPhase p).joinTail cls ids = (s.joinTail cls ids).withPhase p := by
  cases cls <;> rfl

@[simp] theorem joinHead_withPhase (cls : OrderClass) (ids : List Nat) :
    (s.withPhase p).joinHead cls ids = (s.joinHead cls ids).withPhase p := by
  cases cls <;> rfl

@[simp] theorem removeQueued_withPhase (ids : List Nat) :
    (s.withPhase p).removeQueued ids = (s.removeQueued ids).withPhase p := by
  unfold State.removeQueued
  split <;> simp

@[simp] theorem leaveHeldList_withPhase (i : Nat) : (s.withPhase p).leaveHeldList i = (s.leaveHeldList i).withPhase p := by
  unfold State.leaveHeldList
  simp only [withPhase_ite]
  rfl

@[simp] theorem setMag_withPhase (m : Magazine) (r : MagazineRecord) :
    (s.withPhase p).setMag m r = (s.setMag m r).withPhase p := by
  cases m <;> rfl

/-! ### Accesses to slots -/

@[simp] theorem countCorrection_withPhase (i : Nat) : (s.withPhase p).countCorrection i = (s.countCorrection i).withPhase p := by
  unfold State.countCorrection
  simp only [withPhase_ite]
  rfl

theorem readWords_withPhase (i : Nat) (words : List Upset) (f : AccessFinding) :
    readWords i words (f, s.withPhase p) = inPhase p (readWords i words (f, s)) := by
  induction words generalizing f s with
  | nil => rfl
  | cons u rest ih =>
    have hdrawn : (if decide (3 ≤ u.bits) = true then (s.withPhase p).drawn else s.withPhase p) =
        (if decide (3 ≤ u.bits) = true then s.drawn else s).withPhase p := by
      split <;> rfl
    unfold readWords
    simp only [hdrawn, withPhase_draws]
    split
    · exact ih ..
    · rw [countCorrection_withPhase]
      exact ih ..
    · exact ih ..

@[simp] theorem garble_withPhase (i : Nat) (misread : List RecordWord) (o : Order) :
    (s.withPhase p).garble i misread o = inPhase p (s.garble i misread o) := by
  cases misread <;> rfl

@[simp] theorem garbleFree_withPhase (i : Nat) (misread : List RecordWord) :
    (s.withPhase p).garbleFree i misread = (s.garbleFree i misread).withPhase p := by
  cases misread <;> rfl

@[simp] theorem damageSlot_withPhase (i : Nat) (o : Order) (lost : Bool) :
    (s.withPhase p).damageSlot i o lost = (s.damageSlot i o lost).withPhase p := by
  simp only [State.damageSlot, setOrder_withPhase, raise_withPhase, leaveHeldList_withPhase]

@[simp] theorem dropUpsets_withPhase (drop : Upset → Bool) :
    (s.withPhase p).dropUpsets drop = (s.dropUpsets drop).withPhase p := rfl

@[simp] theorem readSlot_withPhase (i : Nat) : readSlot i (s.withPhase p) = (readSlot i s).withPhase p := by
  unfold readSlot
  simp only [withPhase_order?, withPhase_memory, readWords_withPhase, inPhase_fst, inPhase_snd, dropUpsets_withPhase,
    garble_withPhase, damageSlot_withPhase]
  split
  · rfl
  · split
    · rfl
    · split
      · rfl
      · split <;> rfl

@[simp] theorem readFreeSlot_withPhase (i : Nat) : readFreeSlot i (s.withPhase p) = (readFreeSlot i s).withPhase p := by
  unfold readFreeSlot
  simp only [withPhase_order?, withPhase_memory, readWords_withPhase, inPhase_fst, inPhase_snd, dropUpsets_withPhase,
    garbleFree_withPhase, damageSlot_withPhase]
  split
  · rfl
  · split
    · rfl
    · split <;> rfl

@[simp] theorem readSlots_withPhase (is : List Nat) : readSlots is (s.withPhase p) = (readSlots is s).withPhase p :=
  foldl_withPhase s p (fun s i => readSlot_withPhase s p i) is

/-! ### Trials, spoils and selections -/

@[simp] theorem hasRoom_withPhase (n : Nat) : (s.withPhase p).hasRoom n = s.hasRoom n := rfl
@[simp] theorem trialCause_withPhase (o : Order) : trialCause (s.withPhase p) o = trialCause s o := rfl
@[simp] theorem setHeldCause_withPhase (cause : Option HeldCause) :
    (s.withPhase p).setHeldCause cause = (s.setHeldCause cause).withPhase p := rfl

@[simp] theorem admitOrder_withPhase (i : Nat) (o : Order) :
    admitOrder i o (s.withPhase p) = (admitOrder i o s).withPhase p := by
  simp only [admitOrder, withPhase_store, setFigures_withPhase, makeUnits_withPhase, inPhase_fst, inPhase_snd,
    joinTail_withPhase, setOrder_withPhase]

theorem heldTrials_withPhase (n : Nat) : heldTrials n (s.withPhase p) = (heldTrials n s).withPhase p := by
  induction n generalizing s with
  | zero => rfl
  | succ n ih =>
    unfold heldTrials
    simp only [withPhase_orders, readSlot_withPhase, withPhase_order?, trialCause_withPhase, setHeldCause_withPhase,
      leaveHeldList_withPhase]
    split
    · rfl
    · split
      · split
        · split
          · rfl
          · refine Eq.trans ?_ (ih _)
            rw [← admitOrder_withPhase]
            rfl
        · exact ih _
      · exact ih _
      · rfl

@[simp] theorem runTrials_withPhase : runTrials (s.withPhase p) = (runTrials s).withPhase p := by
  unfold runTrials
  simp only [withPhase_ite, withPhase_orders, withPhase_cycleRuns, heldTrials_withPhase]
  rfl

@[simp] theorem stripSpoiled_withPhase (id : Nat) : stripSpoiled id (s.withPhase p) = (stripSpoiled id s).withPhase p := by
  simp only [stripSpoiled, withPhase_cal]
  split
  · simp only [withPhase_ite]
    rfl
  · rfl

@[simp] theorem spoilReprinted_withPhase (i : Nat) (o : Order) (u : PrintUnit) :
    spoilReprinted i o u (s.withPhase p) = (spoilReprinted i o u s).withPhase p := by
  simp only [spoilReprinted, makeUnit_withPhase, inPhase_fst, inPhase_snd, joinHead_withPhase, setOrder_withPhase]

@[simp] theorem spoilMissing_withPhase (i : Nat) (o : Order) (u : PrintUnit) :
    spoilMissing i o u (s.withPhase p) = (spoilMissing i o u s).withPhase p := by
  simp only [spoilMissing, withPhase_figures?]
  split <;> rfl

@[simp] theorem spoilReport_withPhase (id : Nat) : spoilReport id (s.withPhase p) = (spoilReport id s).withPhase p := by
  simp only [spoilReport, withPhase_unit?, setUnit_withPhase, stripSpoiled_withPhase, withPhase_soundOrder,
    readSlot_withPhase, spoilReprinted_withPhase, spoilMissing_withPhase]
  split
  · rfl
  · simp only [withPhase_ite]
    split
    · rfl
    · split
      · rfl
      · split
        · rfl
        · split
          · rfl
          · split
            · rfl
            · simp only [withPhase_ite]

@[simp] theorem promoteUnits_withPhase (i n : Nat) : promoteUnits i n (s.withPhase p) = inPhase p (promoteUnits i n s) := by
  unfold promoteUnits
  simp only [inPhase_ite]
  rfl

@[simp] theorem eligible_withPhase (m : Magazine) : (s.withPhase p).eligible m = s.eligible m := rfl
@[simp] theorem slotsOf_withPhase (ids : List Nat) : (s.withPhase p).slotsOf ids = s.slotsOf ids := rfl
@[simp] theorem unitsInUse_withPhase : (s.withPhase p).unitsInUse = s.unitsInUse := rfl

@[simp] theorem removeDamaged_withPhase : removeDamaged (s.withPhase p) = (removeDamaged s).withPhase p := by
  have hfigures (is : List Nat) (t : State) : is.foldl (fun s i => s.setFigures i none) (t.withPhase p) =
      (is.foldl (fun s i => s.setFigures i none) t).withPhase p := foldl_withPhase t p (fun _ _ => rfl) is
  simp only [removeDamaged, withPhase_queue, slotsOf_withPhase, readSlots_withPhase, withPhase_unit?,
    withPhase_unitDamaged, hfigures, removeQueued_withPhase, runTrials_withPhase]

@[simp] theorem takeGranted_withPhase (id : Nat) : takeGranted id (s.withPhase p) = (takeGranted id s).withPhase p := by
  simp only [takeGranted, leaveQueue_withPhase, modifyUnit_withPhase, oweTrial_withPhase]

@[simp] theorem settleSelection_withPhase : settleSelection (s.withPhase p) = inPhase p (settleSelection s) := by
  unfold settleSelection
  simp only [withPhase_engine, withPhase_queue, withPhase_store, eligible_withPhase, unitsInUse_withPhase,
    takeGranted_withPhase, inPhase_ite]
  split
  · rfl
  · split
    · rfl
    · split
      · rfl
      · rw [inPhase_ite, inPhase_ite]
        refine if_congr Iff.rfl rfl (if_congr Iff.rfl rfl ?_)
        split
        · rw [inPhase_mk, ← takeGranted_withPhase]
          rfl
        · rw [inPhase_ite]
          rfl

@[simp] theorem select_withPhase : select (s.withPhase p) = inPhase p (select s) := by
  simp only [select, removeDamaged_withPhase, settleSelection_withPhase]

/-! ### The engine -/

@[simp] theorem mapEngine_withPhase (f : Engine → Engine) : (s.withPhase p).mapEngine f = (s.mapEngine f).withPhase p := rfl
@[simp] theorem inEngine_withPhase : (s.withPhase p).inEngine = s.inEngine := rfl
@[simp] theorem unitLine_withPhase (u : PrintUnit) : (s.withPhase p).unitLine u = s.unitLine u := rfl

@[simp] theorem engineSpoil_withPhase : engineSpoil (s.withPhase p) = (engineSpoil s).withPhase p := by
  simp only [engineSpoil, inEngine_withPhase, spoilReport_withPhase, mapEngine_withPhase]
  split
  · rfl
  · simp only [withPhase_ite]

@[simp] theorem beginImageLine_withPhase (k : Nat) (u : PrintUnit) :
    beginImageLine k u (s.withPhase p) = (beginImageLine k u s).withPhase p := by
  simp only [beginImageLine, withPhase_engine, mapEngine_withPhase, engineSpoil_withPhase, raise_withPhase]
  split <;> rfl

@[simp] theorem beginLine_withPhase (phase : Phase) (k : Nat) :
    beginLine phase k (s.withPhase p) = (beginLine phase k s).withPhase p := by
  simp only [beginLine, mapEngine_withPhase, inEngine_withPhase, withPhase_engine, beginImageLine_withPhase]
  split
  · rfl
  · rfl
  · rfl
  · rfl
  · split
    · rfl
    · simp only [withPhase_ite]

@[simp] theorem enterPhase_withPhase (phase : Phase) : enterPhase phase (s.withPhase p) = (enterPhase phase s).withPhase p := by
  unfold enterPhase
  dsimp only
  rw [mapEngine_withPhase]
  generalize s.mapEngine _ = t
  rw [inEngine_withPhase]
  split
  · rfl
  · next u _ =>
    cases first : u.firstLit phase && t.engine.holds.lampLow <;>
      simp only [withPhase_engine, first, if_true, Bool.false_eq_true, if_false, engineSpoil_withPhase,
        inEngine_withPhase, mapEngine_withPhase, beginLine_withPhase, withPhase_ite]

@[simp] theorem reportStart_withPhase (u : PrintUnit) (clamped : Bool) :
    reportStart u clamped (s.withPhase p) = (reportStart u clamped s).withPhase p := by
  simp only [reportStart, withPhase_soundOrder, setOrder_withPhase]
  split <;> rfl

@[simp] theorem completeStart_withPhase (id : Nat) : completeStart id (s.withPhase p) = (completeStart id s).withPhase p := by
  unfold completeStart
  rw [withPhase_unit?]
  split
  · rfl
  · next u _ =>
    obtain ⟨kind, slot⟩ := u
    cases slot <;>
    · simp only [readSlot_withPhase, unitLine_withPhase, withPhase_store, setUnit_withPhase, withPhase_engine,
        setMag_withPhase, mapEngine_withPhase, reportStart_withPhase, enterPhase_withPhase]
      split <;> rfl

@[simp] theorem beginStart_withPhase (id : Nat) : beginStart id (s.withPhase p) = (beginStart id s).withPhase p := by
  simp only [beginStart, mapEngine_withPhase, withPhase_cycleRuns, completeStart_withPhase, withPhase_ite]

@[simp] theorem startSwitchTimer_withPhase : startSwitchTimer (s.withPhase p) = (startSwitchTimer s).withPhase p := rfl

@[simp] theorem beginChange_withPhase : beginChange (s.withPhase p) = (beginChange s).withPhase p := by
  simp only [beginChange, mapEngine_withPhase, withPhase_cycleRuns, startSwitchTimer_withPhase, withPhase_ite]
  rfl

@[simp] theorem makeSelection_withPhase : makeSelection (s.withPhase p) = (makeSelection s).withPhase p := by
  simp only [makeSelection, mapEngine_withPhase, select_withPhase, inPhase_fst, inPhase_snd]
  split <;> simp

@[simp] theorem boundary_withPhase : boundary (s.withPhase p) = (boundary s).withPhase p := by
  simp only [boundary, withPhase_engine, mapEngine_withPhase, withPhase_cycleRuns, makeSelection_withPhase, withPhase_ite]

@[simp] theorem removeHold_withPhase (reason : HoldReason) :
    removeHold reason (s.withPhase p) = (removeHold reason s).withPhase p := by
  simp only [removeHold, mapEngine_withPhase, withPhase_engine, boundary_withPhase, withPhase_ite]

end

end Sys2Proof.Machine
end

section
/-! The link's phase is no matter for a request's decision: the decisions of every block (R162; for O57). -/

namespace Sys2Proof.Machine

section
variable (s : State) (p : LinkPhase)

@[simp] theorem okay_withPhase (body : List Byte) : okay body (s.withPhase p) = inPhase p (okay body s) := rfl
@[simp] theorem refuse_withPhase (status : Status) : refuse status (s.withPhase p) = inPhase p (refuse status s) := rfl

/-! ### The Order Table -/

@[simp] theorem lookUp_withPhase (n : Nat) (touch : Bool) : lookUp n touch (s.withPhase p) = inPhase p (lookUp n touch s) := by
  simp only [lookUp, withPhase_findOrder, readSlot_withPhase, withPhase_order?]
  split
  · rfl
  · split
    · rfl
    · simp only [inPhase_ite]
      rfl

theorem freeNumber_withPhase (k n : Nat) : freeNumber (s.withPhase p) k n = freeNumber s k n := by
  induction k generalizing n with
  | zero => rfl
  | succ k ih => simp only [freeNumber, withPhase_findOrder, ih]

@[simp] theorem takeFreeSlot_withPhase (is : List Nat) : takeFreeSlot is (s.withPhase p) = inPhase p (takeFreeSlot is s) := by
  induction is generalizing s with
  | nil => rfl
  | cons i is ih => simp only [takeFreeSlot, withPhase_order?, readFreeSlot_withPhase, ih, inPhase_ite, inPhase_mk]

@[simp] theorem decideOpenOrder_withPhase (source cls : Nat) (promise : Option Nat) (tag : Option (List Byte)) :
    decideOpenOrder source cls promise tag (s.withPhase p) = inPhase p (decideOpenOrder source cls promise tag s) := by
  unfold decideOpenOrder
  split
  · rfl
  · rw [inPhase_ite, takeFreeSlot_withPhase]
    refine if_congr Iff.rfl rfl ?_
    obtain ⟨slot, s1⟩ := takeFreeSlot slotIndexes s
    cases slot with
    | none => rfl
    | some i =>
      simp only [inPhase_mk, withPhase_orders, freeNumber_withPhase]
      rfl

@[simp] theorem decideAddLine_withPhase (resumed : Bool) (n : Nat) (item : LineItem) :
    decideAddLine resumed n item (s.withPhase p) = inPhase p (decideAddLine resumed n item s) := by
  unfold decideAddLine
  rw [lookUp_withPhase]
  obtain ⟨named, s1⟩ := lookUp n (!resumed) s
  simp only [inPhase_mk, inPhase_ite, withPhase_cycleRuns]
  refine if_congr Iff.rfl rfl ?_
  cases named with
  | noOrder => rfl
  | damaged => rfl
  | order i o =>
    simp only [inPhase_ite, withPhase_store]
    refine if_congr Iff.rfl rfl (if_congr Iff.rfl rfl ?_)
    split
    · rfl
    · simp only [inPhase_ite]
      rfl

@[simp] theorem decideChangeLine_withPhase (resumed : Bool) (n position : Nat) (item : LineItem) :
    decideChangeLine resumed n position item (s.withPhase p) = inPhase p (decideChangeLine resumed n position item s) := by
  unfold decideChangeLine
  rw [lookUp_withPhase]
  obtain ⟨named, s1⟩ := lookUp n (!resumed) s
  simp only [inPhase_mk, inPhase_ite, withPhase_cycleRuns]
  refine if_congr Iff.rfl rfl ?_
  cases named with
  | noOrder => rfl
  | damaged => rfl
  | order i o =>
    simp only [inPhase_ite, withPhase_store]
    refine if_congr Iff.rfl rfl (if_congr Iff.rfl rfl (if_congr Iff.rfl rfl ?_))
    split
    · rfl
    · simp only [inPhase_ite]
      rfl

@[simp] theorem decideDropLine_withPhase (n position : Nat) :
    decideDropLine n position (s.withPhase p) = inPhase p (decideDropLine n position s) := by
  unfold decideDropLine
  rw [lookUp_withPhase]
  obtain ⟨named, s1⟩ := lookUp n true s
  cases named with
  | noOrder => rfl
  | damaged => rfl
  | order i o =>
    simp only [inPhase_mk, inPhase_ite]
    rfl

@[simp] theorem joinHeld_withPhase (i : Nat) (o : Order) : joinHeld i o (s.withPhase p) = (joinHeld i o s).withPhase p := rfl

@[simp] theorem decideSubmit_withPhase (resumed : Bool) (n : Nat) :
    decideSubmit resumed n (s.withPhase p) = inPhase p (decideSubmit resumed n s) := by
  unfold decideSubmit
  rw [lookUp_withPhase]
  obtain ⟨named, s1⟩ := lookUp n (!resumed) s
  simp only [inPhase_mk, inPhase_ite, withPhase_cycleRuns]
  refine if_congr Iff.rfl rfl ?_
  cases named with
  | noOrder => rfl
  | damaged => rfl
  | order i o =>
    simp only [inPhase_ite, withPhase_store]
    refine if_congr Iff.rfl rfl (if_congr Iff.rfl rfl ?_)
    split
    · rfl
    · simp only [inPhase_ite, withPhase_orders, hasRoom_withPhase, admitOrder_withPhase, joinHeld_withPhase, okay_withPhase]

@[simp] theorem decideWithdraw_withPhase (n : Nat) : decideWithdraw n (s.withPhase p) = inPhase p (decideWithdraw n s) := by
  unfold decideWithdraw
  rw [lookUp_withPhase]
  obtain ⟨named, s1⟩ := lookUp n true s
  cases named with
  | noOrder => rfl
  | damaged => rfl
  | order i o => simp only [inPhase_mk, inPhase_ite, leaveHeldList_withPhase, setOrder_withPhase, okay_withPhase, refuse_withPhase]

@[simp] theorem markVoid_withPhase (ids : List Nat) : markVoid ids (s.withPhase p) = (markVoid ids s).withPhase p :=
  foldl_withPhase s p (fun s id => modifyUnit_withPhase s p id _) ids

@[simp] theorem handBack_withPhase (n : Nat) : handBack n (s.withPhase p) = (handBack n s).withPhase p := rfl
@[simp] theorem freeBin_withPhase (n : Nat) : freeBin n (s.withPhase p) = (freeBin n s).withPhase p := rfl

@[simp] theorem giveBackBin_withPhase (o : Order) : giveBackBin o (s.withPhase p) = (giveBackBin o s).withPhase p := by
  unfold giveBackBin
  split <;> rfl

@[simp] theorem inFlightOf_withPhase (i n : Nat) : inFlightOf i n (s.withPhase p) = inFlightOf i n s := rfl
@[simp] theorem countedInFlight_withPhase (ids : List Nat) : countedInFlight ids (s.withPhase p) = countedInFlight ids s := rfl

@[simp] theorem cancelUnits_withPhase (i : Nat) (o : Order) :
    cancelUnits i o (s.withPhase p) = inPhase p (cancelUnits i o s) := by
  simp only [cancelUnits, withPhase_queuedWhere, removeQueued_withPhase, inFlightOf_withPhase, markVoid_withPhase,
    giveBackBin_withPhase, freeSlot_withPhase, setOrder_withPhase, countedInFlight_withPhase, okay_withPhase, inPhase_ite]

@[simp] theorem decideCancel_withPhase (n : Nat) : decideCancel n (s.withPhase p) = inPhase p (decideCancel n s) := by
  unfold decideCancel
  rw [lookUp_withPhase]
  obtain ⟨named, s1⟩ := lookUp n true s
  cases named with
  | noOrder => rfl
  | damaged => rfl
  | order i o =>
    simp only [inPhase_mk, leaveHeldList_withPhase, giveBackBin_withPhase, freeSlot_withPhase, cancelUnits_withPhase,
      okay_withPhase, refuse_withPhase]
    split <;> simp only [inPhase_ite]

@[simp] theorem decideReadOrder_withPhase (n : Nat) : decideReadOrder n (s.withPhase p) = inPhase p (decideReadOrder n s) := by
  unfold decideReadOrder
  rw [lookUp_withPhase]
  obtain ⟨named, s1⟩ := lookUp n true s
  cases named <;> rfl

@[simp] theorem decideFindOrders_withPhase (source : Nat) (sel : Selector) (start : Nat) :
    decideFindOrders source sel start (s.withPhase p) = inPhase p (decideFindOrders source sel start s) := by
  have found (t : State) : foundNumbers source sel start (t.withPhase p) = foundNumbers source sel start t := rfl
  have live (t : State) : (t.withPhase p).liveOrders = t.liveOrders := rfl
  simp only [decideFindOrders, readSlots_withPhase, found, live, withPhase_orders, okay_withPhase, refuse_withPhase,
    inPhase_ite]

@[simp] theorem lateSlot_withPhase (i : Nat) : lateSlot i (s.withPhase p) = (lateSlot i s).withPhase p := by
  simp only [lateSlot, readSlot_withPhase, withPhase_order?, withPhase_clock]
  split
  · simp only [setOrder_withPhase, raise_withPhase, promoteUnits_withPhase, inPhase_snd, withPhase_ite]
  · rfl

@[simp] theorem lateCheck_withPhase : lateCheck (s.withPhase p) = (lateCheck s).withPhase p := by
  have slots (t : State) := foldl_withPhase (f := fun s i => lateSlot i s) t p (fun s i => lateSlot_withPhase s p i) slotIndexes
  simp only [lateCheck, withPhase_clock, slots, withPhase_ite]

@[simp] theorem decideSetClock_withPhase (minute second : Nat) :
    decideSetClock minute second (s.withPhase p) = inPhase p (decideSetClock minute second s) := by
  unfold decideSetClock
  rw [inPhase_ite]
  refine if_congr Iff.rfl rfl ?_
  rw [← okay_withPhase, ← lateCheck_withPhase]
  rfl

@[simp] theorem decideRetryFault_withPhase (n : Nat) : decideRetryFault n (s.withPhase p) = inPhase p (decideRetryFault n s) := by
  unfold decideRetryFault
  rw [lookUp_withPhase]
  obtain ⟨named, s1⟩ := lookUp n true s
  cases named with
  | noOrder => rfl
  | damaged => rfl
  | order i o =>
    simp only [inPhase_mk, withPhase_figures?, hasRoom_withPhase, makeUnits_withPhase, inPhase_fst, inPhase_snd,
      joinHead_withPhase, setFigures_withPhase, setOrder_withPhase, okay_withPhase, refuse_withPhase, inPhase_ite]

@[simp] theorem decidePromote_withPhase (n : Nat) : decidePromote n (s.withPhase p) = inPhase p (decidePromote n s) := by
  unfold decidePromote
  rw [lookUp_withPhase]
  obtain ⟨named, s1⟩ := lookUp n false s
  cases named with
  | noOrder => rfl
  | damaged => rfl
  | order i o =>
    simp only [inPhase_mk, setOrder_withPhase, promoteUnits_withPhase, inPhase_fst, inPhase_snd, okay_withPhase,
      refuse_withPhase, inPhase_ite]

theorem readHeldHead_withPhase (is : List Nat) : readHeldHead is (s.withPhase p) = (readHeldHead is s).withPhase p := by
  induction is generalizing s with
  | nil => rfl
  | cons i is ih => simp only [readHeldHead, readSlot_withPhase, withPhase_orders, ih, withPhase_ite]

@[simp] theorem answerQueue_withPhase (start : Nat) (order : Option (Nat × Nat)) :
    answerQueue start order (s.withPhase p) = inPhase p (answerQueue start order s) := by
  simp only [answerQueue, withPhase_orders, readHeldHead_withPhase]
  rfl

@[simp] theorem decideReadQueue_withPhase (start : Nat) (number : Option Nat) :
    decideReadQueue start number (s.withPhase p) = inPhase p (decideReadQueue start number s) := by
  unfold decideReadQueue
  rw [inPhase_ite]
  refine if_congr Iff.rfl rfl ?_
  cases number with
  | none => simp only [withPhase_cycleRuns, answerQueue_withPhase, inPhase_ite, inPhase_mk]
  | some n =>
    simp only [lookUp_withPhase]
    obtain ⟨named, s1⟩ := lookUp n false s
    cases named with
    | noOrder => rfl
    | damaged => rfl
    | order i o => simp only [inPhase_mk, withPhase_cycleRuns, answerQueue_withPhase, inPhase_ite]

/-! ### The engine and the train -/

@[simp] theorem decideResume_withPhase : decideResume (s.withPhase p) = inPhase p (decideResume s) := by
  simp only [decideResume, removeHold_withPhase]
  rfl

@[simp] theorem decideSelectMagazine_withPhase : decideSelectMagazine (s.withPhase p) = inPhase p (decideSelectMagazine s) := by
  unfold decideSelectMagazine
  rw [inPhase_ite]
  rfl

@[simp] theorem decideLoadMagazine_withPhase (magazine metres : Nat) :
    decideLoadMagazine magazine metres (s.withPhase p) = inPhase p (decideLoadMagazine magazine metres s) := by
  unfold decideLoadMagazine
  split
  · rfl
  · simp only [withPhase_engine, setMag_withPhase, inPhase_ite]
    rfl

@[simp] theorem decideLutWrite_withPhase (bank channel start : Nat) (levels : List Nat) :
    decideLutWrite bank channel start levels (s.withPhase p) = inPhase p (decideLutWrite bank channel start levels s) := by
  unfold decideLutWrite
  simp only [inPhase_ite]
  rfl

@[simp] theorem decideReadEngine_withPhase : decideReadEngine (s.withPhase p) = inPhase p (decideReadEngine s) := by
  unfold decideReadEngine
  rw [← okay_withPhase, withPhase_ite]
  rfl

@[simp] theorem decideClearFault_withPhase (counts : Option Bool) :
    decideClearFault counts (s.withPhase p) = inPhase p (decideClearFault counts s) := by
  unfold decideClearFault
  rw [← okay_withPhase, ← removeHold_withPhase]
  rfl

@[simp] theorem decideReadTrain_withPhase (place : Nat) :
    decideReadTrain place (s.withPhase p) = inPhase p (decideReadTrain place s) := by
  unfold decideReadTrain
  simp only [inPhase_ite]
  rfl

/-! ### The counter -/

@[simp] theorem settleKeys_withPhase (i : Nat) (o : Order) : settleKeys i o (s.withPhase p) = (settleKeys i o s).withPhase p := by
  simp only [settleKeys, freeSlot_withPhase, setOrder_withPhase, withPhase_ite]

@[simp] theorem releaseBin_withPhase (n : Nat) : releaseBin n (s.withPhase p) = (releaseBin n s).withPhase p := by
  simp only [releaseBin, withPhase_ite]
  rfl

@[simp] theorem decideCollect_withPhase (n : Nat) : decideCollect n (s.withPhase p) = inPhase p (decideCollect n s) := by
  unfold decideCollect
  rw [lookUp_withPhase]
  obtain ⟨named, s1⟩ := lookUp n false s
  cases named with
  | noOrder => rfl
  | damaged => rfl
  | order i o =>
    simp only [inPhase_mk, releaseBin_withPhase, withPhase_bin]
    rw [inPhase_ite]
    refine if_congr Iff.rfl ?_ rfl
    split <;> simp only [settleKeys_withPhase, okay_withPhase]

@[simp] theorem decideEmptyTrays_withPhase (selection : Nat) :
    decideEmptyTrays selection (s.withPhase p) = inPhase p (decideEmptyTrays selection s) := by
  unfold decideEmptyTrays
  rw [inPhase_ite]
  rfl

@[simp] theorem decideQuote_withPhase (n : Nat) : decideQuote n (s.withPhase p) = inPhase p (decideQuote n s) := by
  unfold decideQuote
  rw [lookUp_withPhase]
  obtain ⟨named, s1⟩ := lookUp n true s
  cases named with
  | noOrder => rfl
  | damaged => rfl
  | order i o =>
    simp only [inPhase_mk, inPhase_ite]
    rfl

@[simp] theorem takePayment_withPhase (i amount : Nat) (o : Order) :
    takePayment i amount o (s.withPhase p) = inPhase p (takePayment i amount o s) := by
  simp only [takePayment, settleKeys_withPhase, okay_withPhase, inPhase_ite, inPhase_mk]

@[simp] theorem decidePay_withPhase (n amount : Nat) : decidePay n amount (s.withPhase p) = inPhase p (decidePay n amount s) := by
  unfold decidePay
  rw [lookUp_withPhase]
  obtain ⟨named, s1⟩ := lookUp n false s
  cases named with
  | noOrder => rfl
  | damaged => rfl
  | order i o => simp only [inPhase_mk, takePayment_withPhase, refuse_withPhase, inPhase_ite]

/-! ### Calibration -/

@[simp] theorem queueStrip_withPhase (surface : Nat) : queueStrip surface (s.withPhase p) = inPhase p (queueStrip surface s) := by
  simp only [queueStrip, makeUnit_withPhase, withPhase_store]
  obtain ⟨id, s1⟩ := s.makeUnit (stripUnit surface s.store.general)
  cases id <;> rfl

@[simp] theorem stripAbout_withPhase : (s.withPhase p).stripAbout = s.stripAbout := rfl

@[simp] theorem decideStartCal_withPhase (surface : Nat) :
    decideStartCal surface (s.withPhase p) = inPhase p (decideStartCal surface s) := by
  simp only [decideStartCal, withPhase_store, withPhase_cal, stripAbout_withPhase, unitsInUse_withPhase,
    withPhase_cycleRuns, queueStrip_withPhase, refuse_withPhase, inPhase_ite, inPhase_mk]

@[simp] theorem decideWaiveCal_withPhase (surface : Nat) :
    decideWaiveCal surface (s.withPhase p) = inPhase p (decideWaiveCal surface s) := by
  unfold decideWaiveCal
  rw [inPhase_ite]
  refine if_congr Iff.rfl rfl ?_
  rw [← okay_withPhase, withPhase_ite]
  rfl

@[simp] theorem decideReadCal_withPhase (surface : Nat) :
    decideReadCal surface (s.withPhase p) = inPhase p (decideReadCal surface s) := by
  unfold decideReadCal
  simp only [inPhase_ite]
  rfl

/-! ### The link, the notices, the store and damaged slots -/

@[simp] theorem decideLinkSetup_withPhase (address lab : Option Nat) :
    decideLinkSetup address lab (s.withPhase p) = inPhase p (decideLinkSetup address lab s) := by
  unfold decideLinkSetup
  simp only [inPhase_ite]
  rfl

@[simp] theorem decideReadLink_withPhase (queued : Nat) :
    decideReadLink queued (s.withPhase p) = inPhase p (decideReadLink queued s) := by
  unfold decideReadLink
  rw [inPhase_ite]
  rfl

@[simp] theorem decideClearNotice_withPhase (kind : Nat) :
    decideClearNotice kind (s.withPhase p) = inPhase p (decideClearNotice kind s) := by
  simp only [decideClearNotice, withPhase_notices]
  split
  · rw [inPhase_ite]
    rfl
  · rfl

@[simp] theorem decideStoreRead_withPhase (sheet start count : Nat) :
    decideStoreRead sheet start count (s.withPhase p) = inPhase p (decideStoreRead sheet start count s) := by
  unfold decideStoreRead
  split
  · rfl
  · rw [inPhase_ite]
    rfl

@[simp] theorem decideStoreWrite_withPhase (sheet start : Nat) (values : List Word32) :
    decideStoreWrite sheet start values (s.withPhase p) = inPhase p (decideStoreWrite sheet start values s) := by
  unfold decideStoreWrite
  split
  · rfl
  · rw [inPhase_ite]
    rfl

@[simp] theorem releaseSlot_withPhase (i : Nat) (o : Order) : releaseSlot i o (s.withPhase p) = inPhase p (releaseSlot i o s) := by
  have bins (t : State) (ns : List Nat) := foldl_withPhase (f := fun s n => handBack n s) t p (fun s n => handBack_withPhase s p n) ns
  have named (t : State) : binsOfSlot i (t.withPhase p) = binsOfSlot i t := rfl
  simp only [releaseSlot, withPhase_queuedWhere, removeQueued_withPhase, setFigures_withPhase, named, bins,
    freeSlot_withPhase, okay_withPhase]

@[simp] theorem decideReleaseDamaged_withPhase (slot : Nat) :
    decideReleaseDamaged slot (s.withPhase p) = inPhase p (decideReleaseDamaged slot s) := by
  unfold decideReleaseDamaged
  simp only [readSlot_withPhase, withPhase_order?]
  rw [inPhase_ite]
  refine if_congr Iff.rfl rfl ?_
  split
  · simp only [releaseSlot_withPhase, refuse_withPhase, inPhase_ite]
  · rfl

/-- No owning block's decision reads the link's phase (R162). -/
theorem decideRequest_withPhase (source queued : Nat) (resumed : Bool) (r : Request) :
    decideRequest source queued resumed r (s.withPhase p) = inPhase p (decideRequest source queued resumed r s) := by
  unfold decideRequest
  cases r <;> simp
  all_goals rfl

/-! ### The rights test and the link's conclusion (R162, R168 to R171) -/

theorem ownerTest_withPhase (source n : Nat) : ownerTest source n (s.withPhase p) = inPhase p (ownerTest source n s) := by
  simp only [ownerTest, withPhase_findOrder, readSlot_withPhase, withPhase_order?]
  split
  · rfl
  · split
    · rfl
    · simp only [inPhase_ite]
      rfl

theorem entryTest_withPhase (source : Nat) (r : Request) :
    entryTest source r (s.withPhase p) = inPhase p (entryTest source r s) := by
  unfold entryTest
  simp only [inPhase_ite, withPhase_store]
  refine if_congr Iff.rfl rfl (if_congr Iff.rfl rfl (if_congr Iff.rfl rfl (if_congr Iff.rfl rfl ?_)))
  split
  · rw [inPhase_ite, ownerTest_withPhase]
    rfl
  · rfl

theorem rightsTest_withPhase (source : Nat) (r : Request) :
    rightsTest source r (s.withPhase p) = inPhase p (rightsTest source r s) := by
  unfold rightsTest
  simp only [inPhase_ite, entryTest_withPhase]
  rfl

theorem damagedReply_withPhase (r : Request) (i : Nat) :
    damagedReply r i (s.withPhase p) = inPhase p (damagedReply r i s) := by
  cases r
  case readQueue =>
    unfold damagedReply
    rw [inPhase_ite]
    rfl
  all_goals rfl

theorem violate_withPhase (source : Nat) (r : Request) (cause : DenyCause) (broadcast : Bool) :
    violate source r cause broadcast (s.withPhase p) = (violate source r cause broadcast s).withPhase p := by
  obtain ⟨_, _, _, _, _, _, _, _, _, link, _, _, _, _⟩ := s
  obtain ⟨_, _, _, _, _, _, violation, _, _, _, _, _⟩ := link
  cases violation <;> rfl

/-- The link's conclusion sets its phase. -/
theorem conclude_inPhase (h : Header) (broadcast : Bool) (r : Request) (queued : Nat) (x : Reply × State) :
    conclude h broadcast r queued (inPhase p x) = conclude h broadcast r queued x := by
  obtain ⟨reply, t⟩ := x
  cases reply with
  | answer status body => cases broadcast <;> rfl
  | wait damaged => rfl

/-- The rights test and the hand-over do not read the link's phase, and end by setting it (R162, R170). -/
theorem passRights_withPhase (h : Header) (broadcast : Bool) (r : Request) (queued : Nat) :
    passRights h broadcast r queued (s.withPhase p) = passRights h broadcast r queued s := by
  unfold passRights
  rw [rightsTest_withPhase]
  obtain ⟨result, s1⟩ := rightsTest h.source r s
  cases result with
  | wait => rfl
  | deny cause =>
    simp only [inPhase_mk, denied, violate_withPhase]
    cases broadcast <;> rfl
  | pass found =>
    cases found with
    | some i =>
      simp only [inPhase_mk, damagedReply_withPhase]
      exact conclude_inPhase ..
    | none =>
      simp only [inPhase_mk, decideRequest_withPhase]
      exact conclude_inPhase ..

end

end Sys2Proof.Machine
end

section
/-! Work that waits on a write cycle and proceeds after it (R183; O57). -/

namespace Sys2Proof.Machine

/-! ### Requests whose sheet read waits (R162) -/

/-- A request that waits in its owning block, the rest of the part as the block left it. -/
theorem exec_waits {c : Instr} {h : Header} {r : Request} {s t : State} {damaged : Bool} (hc : c.request? = some (h, r))
    (ok : s.accepts = true)
    (hd : decideRequest h.source s.link.queue.length false r s = (.wait damaged, t)) (hlink : t.link = s.link)
    (hs : t.queue.signal = false) (ht : t.orders.trialDue = false) :
    exec c s = .next { t with link := { s.link with
      phase := .working { header := h, broadcast := false, request := r
                          queued := s.link.queue.length, stage := .owner damaged } } } := by
  have hconclude : conclude h false r s.link.queue.length (decideRequest h.source s.link.queue.length false r s) =
      { t with link := { s.link with
        phase := .working { header := h, broadcast := false, request := r
                            queued := s.link.queue.length, stage := .owner damaged } } } := by
    rw [hd, ← hlink]
    rfl
  rcases exec_request hc s with he | he
  · rw [he, serve_accepts ok, hconclude]
  · rw [he, serveActing_accepts ok, hconclude]
    exact congrArg Host.Outcome.next (settle_calm (s := { t with link := _ }) hs ht)

/-- The requests that edit an order's lines or submit it read the SIZE sheet (R8, R9, R12). -/
def readsSizes (n : Nat) : Request → Prop
  | .addLine m _ | .changeLine m _ _ | .submit m => m = n
  | _ => False

/-- A line edit or SUBMIT that meets a write cycle waits after its first access. -/
theorem decideRequest_sizes_wait {r : Request} {n : Nat} (hr : readsSizes n r) (source queued : Nat) {resumed : Bool}
    {s t : State} {named : Named} (hl : lookUp n (!resumed) s = (named, t)) (runs : t.cycleRuns = true) :
    decideRequest source queued resumed r s = (.wait named.isDamaged, t) := by
  cases r with
  | addLine m item => cases hr; simp [decideRequest, decideAddLine, hl, runs]
  | changeLine m position item => cases hr; simp [decideRequest, decideChangeLine, hl, runs]
  | submit m => cases hr; simp [decideRequest, decideSubmit, hl, runs]
  | _ => cases hr

/-- The rows of the line edits and of SUBMIT. -/
theorem sizeRow {h : Header} {n position : Nat} {item : LineItem} {c : Instr} {r : Request}
    (hrow : (c, r) ∈ [(Instr.addLine h n item, Request.addLine n item),
      (.changeLine h n position item, .changeLine n position item), (.submit h n, .submit n)]) :
    c.request? = some (h, r) ∧ readsSizes n r := by
  simp only [List.mem_cons, Prod.mk.injEq, List.not_mem_nil, or_false] at hrow
  rcases hrow with ⟨rfl, rfl⟩ | ⟨rfl, rfl⟩ | ⟨rfl, rfl⟩ <;> exact ⟨rfl, rfl⟩

/-- The line edits and SUBMIT wait whole, their order's access made (R7, R11, R12). -/
theorem exec_sizes_waits {c : Instr} {h : Header} {r : Request} {n : Nat} {s : State} (hc : c.request? = some (h, r))
    (hr : readsSizes n r) (calm : Calm s) (clean : CleanStorage s) (runs : s.cycleRuns = true) :
    let works := fun (damaged : Bool) (s1 : State) =>
      exec c s = .next { s1 with link := { s.link with
        phase := .working { header := h, broadcast := false, request := r
                            queued := s.link.queue.length, stage := .owner damaged } } }
    (s.findOrder n = none → works false s)
    ∧ ∀ i o, s.findOrder n = some i → s.order? i = some o →
      (o.state = .damaged → works true s)
      ∧ (o.state ≠ .damaged → works false { s with orders := { s.orders with
          slots := s.orders.slots.set i (some
            (if o.state = .draft then { o with idle := 0 } else o)) } }) := by
  refine ⟨fun unknown => ?_, fun i o found held => ⟨fun damaged => ?_, fun sound => ?_⟩⟩
  · exact exec_waits hc calm.accepts (decideRequest_sizes_wait hr _ _ (lookUp_none unknown) runs) rfl calm.noSignal calm.noTrial
  · exact exec_waits hc calm.accepts (decideRequest_sizes_wait hr _ _ (lookUp_damaged found held damaged) runs) rfl
      calm.noSignal calm.noTrial
  · exact exec_waits (t := s.setOrder i (touched o)) hc calm.accepts
      (decideRequest_sizes_wait hr _ _ (resumed := false) (lookUp_touched clean ⟨found, held, sound⟩) runs) rfl calm.noSignal calm.noTrial

/-- With every other test passed, START_CAL meets the write cycle (R147). -/
theorem stripAbout_iff (s : State) :
    s.stripAbout = true ↔ ∃ id ∈ s.queue.ids ++ s.inFlight, ∃ u, s.unit? id = some u ∧ u.kind = .strip := by
  simp only [State.stripAbout, List.any_eq_true, Option.any_eq_true, beq_iff_eq]

theorem setupBad_none {limit : Nat} {item : Option Nat} (h : ∀ a ∈ item, 1 ≤ a ∧ a ≤ limit) : setupBad limit item = false := by
  cases item with
  | none => rfl
  | some a =>
    obtain ⟨hlow, hhigh⟩ := h a rfl
    simp [setupBad]
    omega

/-- The requests that wait once their other tests pass (R52, R110, R147, R154, R165, R172). -/
theorem exec_others_wait (h : Header) {s : State} (calm : Calm s) (clean : CleanStorage s) (runs : s.cycleRuns = true) :
    let works := fun (c : Instr) (r : Request) =>
      exec c s = .next { s with link := { s.link with
        phase := .working { header := h, broadcast := false, request := r
                            queued := s.link.queue.length, stage := .owner false } } }
    (∀ place, 1 ≤ place → place ≤ 64 → works (.readTrain h place) (.readTrain place))
    ∧ (∀ surface ≤ 3, works (.readCal h surface) (.readCal surface))
    ∧ (∀ start, 1 ≤ start → start ≤ 512 →
      works (.readQueue h start none) (.readQueue start none)
      ∧ ∀ n i o, Names s n i o → works (.readQueue h start (some n)) (.readQueue start (some n)))
    ∧ works (.readLink h) .readLink
    ∧ (∀ address lab : Option Nat, address = none ∨ lab = none → (∀ a ∈ address, 1 ≤ a ∧ a ≤ 254) →
      (∀ l ∈ lab, 1 ≤ l ∧ l ≤ 31) → works (.linkSetup h address lab) (.linkSetup address lab))
    ∧ ∀ surface ≤ 3, s.store.calibration.bad = false → s.cal.strip = .none → s.stripAbout = false →
      s.unitsInUse ≤ 504 → works (.startCal h surface) (.startCal surface) := by
  intro works
  have waits {c : Instr} {r : Request} (hc : c.request? = some (h, r))
      (hd : decideRequest h.source s.link.queue.length false r s = (.wait false, s)) : works c r :=
    exec_waits hc calm.accepts hd rfl calm.noSignal calm.noTrial
  refine ⟨fun place low high => waits rfl ?_, fun surface high => waits rfl ?_,
    fun start low high => ⟨waits rfl ?_, fun n i o named => waits rfl ?_⟩, waits rfl ?_,
    fun address lab absent ha hl => waits rfl ?_, fun surface high good noStrip noAbout room => waits rfl ?_⟩
  · exact (if_neg (by omega)).trans (if_pos runs)
  · exact (if_neg (by omega)).trans (if_pos runs)
  · exact (if_neg (by omega)).trans (if_pos runs)
  · simp [decideRequest, decideReadQueue, lookUp_plain clean named (.inl rfl), runs, Nat.not_lt.mpr high,
      Nat.one_le_iff_ne_zero.mp low]
  · exact if_pos runs
  · refine (if_neg (by simp [setupBad_none ha, setupBad_none hl])).trans (if_pos ?_)
    rw [Bool.and_eq_true, Bool.or_eq_true, Option.isNone_iff_eq_none, Option.isNone_iff_eq_none]
    exact ⟨absent, runs⟩
  · simp [decideRequest, decideStartCal, good, noStrip, noAbout, runs, Nat.not_lt.mpr high, Config.stripLimit,
      Nat.not_lt.mpr room]

/-! ### The rights test of another station's request (R170) -/

/-- Only SET_CLOCK has the code of a SET_CLOCK. -/
theorem readRequest_setClock {body : List Byte} {r : Request} (h : readRequest 0x0A body = some r) : namedSheet r = none := by
  have items : readItems 0x0A body = whole (readPair read16 read8) (fun (minute, second) => .setClock minute second) body := rfl
  unfold readRequest at h
  rw [items, whole] at h
  cases hr : readPair read16 read8 body with
  | none =>
    simp only [hr] at h
    obtain ⟨-, hr⟩ := Option.ite_none_right_eq_some.mp h
    cases hr
    rfl
  | some x =>
    obtain ⟨⟨minute, second⟩, rest⟩ := x
    cases rest with
    | nil =>
      simp only [hr] at h
      cases h
      rfl
    | cons =>
      simp only [hr] at h
      obtain ⟨-, hr⟩ := Option.ite_none_right_eq_some.mp h
      cases hr
      rfl

/-- A frame that passes the link's own tests goes to the rights test (R163, R164). -/
theorem frame_passes {f : Frame} {r : Request} {queued : Nat} {s : State} (setUp : s.link.setUp = true)
    (read : readRequest f.code f.body = some r) (clock : f.broadcast = true → f.code = 0x0A) :
    (if f.broadcast = true then takeBroadcast f queued s else takeAddressed f queued s) =
      passRights { source := f.source, tag := f.tag } f.broadcast r queued s := by
  have known := readRequest_isRequestCode read
  by_cases broadcast : f.broadcast = true
  · rw [if_pos broadcast, broadcast]
    unfold takeBroadcast
    simp only [if_pos (And.intro setUp (clock broadcast)), read]
  · rw [if_neg broadcast, Bool.eq_false_iff.mpr broadcast]
    unfold takeAddressed
    simp only [setUp, known, read, Bool.true_eq_false, false_and, if_false]

/-- Another station's request waits for its rights test, a store request excepted (R170). -/
theorem rightsTest_runs {source : Nat} {r : Request} {s : State} (setUp : s.link.setUp = true)
    (other : s.link.lab ≠ some source) (runs : s.cycleRuns = true) :
    rightsTest source r s = if (namedSheet r).isSome = true then (.pass none, s) else (.wait, s) := by
  refine (if_neg ?_).trans (if_pos runs)
  rintro (lab | unset)
  · exact other lab
  · rw [setUp] at unset
    cases unset

/-- A store request in range is answered STORE_BUSY while a cycle runs (R181, R182). -/
theorem storeNamed_some {sheet start count : Nat} (hs : sheet ≤ 4) (he : start ≤ 63) (low : 1 ≤ count) (high : count ≤ 16) :
    ∃ name, storeNamed sheet start count = some name := by
  have hno : ¬(63 < start ∨ count = 0 ∨ 16 < count) := by omega
  unfold storeNamed
  rw [if_neg hno]
  interval_cases sheet <;> exact ⟨_, rfl⟩

section
variable {f : Frame} {rest : List Frame} {r : Request} {s : State} (calm : Calm s) (runs : s.cycleRuns = true)
  (hq : s.link.queue = f :: rest) (clock : f.broadcast = true → f.code = 0x0A) (setUp : s.link.setUp = true)
  (other : s.link.lab ≠ some f.source) (read : readRequest f.code f.body = some r)
include calm runs hq clock setUp other read

/-- Another station's request that names no sheet waits for its rights test (R170). -/
theorem rights_wait (noSheet : namedSheet r = none) :
    exec .requestTaken s = .next { s with link := { s.link with
      queue := rest
      phase := .working { header := { source := f.source, tag := f.tag }, broadcast := f.broadcast, request := r
                          queued := rest.length, stage := .rights } } } := by
  have test : rightsTest f.source r (s.frameTaken rest) = (.wait, s.frameTaken rest) := by
    rw [rightsTest_runs (s := s.frameTaken rest) setUp other runs, noSheet]
    rfl
  refine exec_requestTaken_calm calm hq ((frame_passes (s := s.frameTaken rest) setUp read clock).trans ?_)
  simp only [passRights, test]
  rfl

/-- Another station's store request goes to the store (R170). -/
theorem store_busy (sheet : (namedSheet r).isSome = true)
    (busy : decideRequest f.source rest.length false r (s.frameTaken rest) = (.answer .storeBusy [], s.frameTaken rest)) :
    exec .requestTaken s = .next ((s.frameTaken rest).answered { source := f.source, tag := f.tag } r .storeBusy []) := by
  have addressed : f.broadcast = false := by
    by_contra broadcast
    rw [clock (by simpa using broadcast)] at read
    rw [readRequest_setClock read] at sheet
    cases sheet
  have test : rightsTest f.source r (s.frameTaken rest) = (.pass none, s.frameTaken rest) := by
    rw [rightsTest_runs (s := s.frameTaken rest) setUp other runs, if_pos sheet]
  refine exec_requestTaken_calm calm hq ((frame_passes (s := s.frameTaken rest) setUp read clock).trans ?_)
  simp only [passRights, test, busy, addressed]
  exact conclude_answer ..

end

/-! ### Waiting requests proceed (R162, R183) -/

section
variable {s : State} {h : Header} {r : Request} {queued : Nat}

/-- WAITING_READ_PROCEEDS with no cycle running. -/
theorem exec_proceeds (running : Running s) (work : WaitingWork) :
    exec (.waitingReadProceeds work) s = .next (settle (proceed work s)) :=
  congrArg Host.Outcome.next (whileOnActing_on running.power)

theorem proceed_request (idle : s.cycleRuns = false) : proceed .request s = resumeRequest s :=
  if_neg (Bool.eq_false_iff.mp idle)

theorem resumeRequest_owner {damaged : Bool}
    (phase : s.link.phase = .working { header := h, broadcast := false, request := r, queued, stage := .owner damaged }) :
    resumeRequest s = conclude h false r queued
      (if damaged = true then refuse .damaged s else decideRequest h.source queued true r s) := by
  unfold resumeRequest
  rw [phase]
  cases damaged with
  | true => rw [if_pos rfl]
  | false => rw [if_neg Bool.false_ne_true]

/-- The owning block's decision, made again, ends the wait. -/
theorem proceeds_owner (running : Running s) (idle : s.cycleRuns = false) {damaged : Bool}
    (phase : s.link.phase = .working { header := h, broadcast := false, request := r, queued, stage := .owner damaged })
    {status : Status} {body : List Byte} {t : State}
    (hd : (if damaged = true then refuse .damaged s else decideRequest h.source queued true r s) = (.answer status body, t)) :
    exec (.waitingReadProceeds .request) s = .next (settle (t.answered h r status body)) := by
  rw [exec_proceeds running, proceed_request idle, resumeRequest_owner phase, hd, conclude_answer]

/-- A waiting request proceeds as its row on an idle link. -/
theorem proceeds_as_row {c : Instr} (hc : c.request? = some (h, r)) (running : Running s) (idle : s.cycleRuns = false)
    (phase : s.link.phase = .working { header := h, broadcast := false, request := r, queued, stage := .owner false })
    {status : Status} {body : List Byte} {t : State}
    (resumed : decideRequest h.source queued true r s = (.answer status body, t))
    (fresh : decideRequest h.source s.link.queue.length false r s = (.answer status body, t))
    (acts : (∀ x, exec c x = .next (serveActing h r (decideRequest h.source x.link.queue.length false r) x))
      ∨ (t.queue.signal = false ∧ t.orders.trialDue = false)) :
    exec (.waitingReadProceeds .request) s = exec c (s.withPhase .idle) := by
  rw [proceeds_owner running idle phase ((if_neg Bool.false_ne_true).trans resumed)]
  have ok : (s.withPhase .idle).accepts = true := accepts_iff.mpr ⟨running.power, rfl⟩
  have hd : decideRequest h.source (s.withPhase .idle).link.queue.length false r (s.withPhase .idle) =
      (.answer status body, t.withPhase .idle) := by
    rw [decideRequest_withPhase, show (s.withPhase .idle).link.queue.length = s.link.queue.length from rfl, fresh]
    rfl
  rcases acts with acting | ⟨hs, ht⟩
  · rw [acting, serveActing_answer ok hd]
    rfl
  · rw [exec_answer hc ok hd hs ht, settle_answered hs ht]
    rfl

end

/-! ### With no cycle running the waiting requests' blocks answer -/

/-- A decision that is an answer. -/
def Answers (x : Reply × State) : Prop := ∃ status body, x = (.answer status body, x.2)

theorem Answers.ite {c : Prop} [Decidable c] {x y : Reply × State} (hx : Answers x) (hy : Answers y) :
    Answers (if c then x else y) := by
  split
  · exact hx
  · exact hy

theorem answers_refuse (status : Status) (s : State) : Answers (refuse status s) := ⟨status, [], rfl⟩

theorem answers_okay (body : List Byte) (s : State) : Answers (okay body s) := ⟨.ok, body, rfl⟩

section
variable {s : State} (idle : s.cycleRuns = false)
include idle

theorem lookUp_idle {n : Nat} {touch : Bool} {named : Named} {t : State} (hl : lookUp n touch s = (named, t)) :
    t.cycleRuns = false := by
  have hstore : (lookUp n touch s).2.store = s.store := (Leaves.refl s).after_lookUp.store
  rw [hl] at hstore
  rw [State.cycleRuns, hstore]
  exact idle

theorem decideAddLine_answers (resumed : Bool) (n : Nat) (item : LineItem) : Answers (decideAddLine resumed n item s) := by
  unfold decideAddLine
  cases hl : lookUp n (!resumed) s with
  | mk named t =>
    simp only [lookUp_idle idle hl, Bool.false_eq_true, if_false]
    cases named with
    | noOrder => exact answers_refuse ..
    | damaged => exact answers_refuse ..
    | order i o =>
      refine .ite (answers_refuse ..) (.ite (answers_refuse ..) ?_)
      split
      · exact answers_refuse ..
      · exact .ite (answers_refuse ..) ⟨_, _, rfl⟩

theorem decideChangeLine_answers (resumed : Bool) (n position : Nat) (item : LineItem) :
    Answers (decideChangeLine resumed n position item s) := by
  unfold decideChangeLine
  cases hl : lookUp n (!resumed) s with
  | mk named t =>
    simp only [lookUp_idle idle hl, Bool.false_eq_true, if_false]
    cases named with
    | noOrder => exact answers_refuse ..
    | damaged => exact answers_refuse ..
    | order i o =>
      refine .ite (answers_refuse ..) (.ite (answers_refuse ..) (.ite (answers_refuse ..) ?_))
      split
      · exact answers_refuse ..
      · exact .ite (answers_refuse ..) ⟨_, _, rfl⟩

theorem decideSubmit_answers (resumed : Bool) (n : Nat) : Answers (decideSubmit resumed n s) := by
  unfold decideSubmit
  cases hl : lookUp n (!resumed) s with
  | mk named t =>
    simp only [lookUp_idle idle hl, Bool.false_eq_true, if_false]
    cases named with
    | noOrder => exact answers_refuse ..
    | damaged => exact answers_refuse ..
    | order i o =>
      refine .ite (answers_refuse ..) (.ite (answers_refuse ..) ?_)
      split
      · exact ⟨_, _, rfl⟩
      · exact .ite (answers_okay ..) (answers_okay ..)

theorem decideReadQueue_answers (start : Nat) (number : Option Nat) : Answers (decideReadQueue start number s) := by
  unfold decideReadQueue
  refine .ite (answers_refuse ..) ?_
  cases number with
  | none =>
    simp only [idle, Bool.false_eq_true, if_false]
    exact answers_okay ..
  | some n =>
    dsimp only
    cases hl : lookUp n false s with
    | mk named t =>
      have after := lookUp_idle idle hl
      cases named with
      | noOrder => exact answers_refuse ..
      | damaged => exact answers_refuse ..
      | order i o =>
        simp only [after, Bool.false_eq_true, if_false]
        exact answers_okay ..

theorem decideStartCal_answers (surface : Nat) : Answers (decideStartCal surface s) := by
  unfold decideStartCal
  refine .ite (answers_refuse ..) (.ite (answers_refuse ..) (.ite (answers_refuse ..) (.ite (answers_refuse ..) ?_)))
  simp only [idle, Bool.false_eq_true, if_false, queueStrip]
  obtain ⟨id, t⟩ := s.makeUnit (stripUnit surface s.store.general)
  cases id with
  | none => exact answers_refuse ..
  | some id => exact answers_okay ..

end

/-- A line edit or SUBMIT with a DRAFT's idle seconds at 0 decides the same whether it has waited or not (R11). -/
theorem lookUp_idleZero {s : State} (clean : CleanStorage s) {n : Nat}
    (zero : ∀ i o, s.findOrder n = some i → s.order? i = some o → o.state = .draft → o.idle = 0) :
    lookUp n true s = lookUp n false s := by
  cases found : s.findOrder n with
  | none => rw [lookUp_none found, lookUp_none found]
  | some i =>
    obtain ⟨-, o, held, -⟩ := findOrder_some found
    by_cases damaged : o.state = .damaged
    · rw [lookUp_damaged found held damaged, lookUp_damaged found held damaged]
    · have htouched : touched o = o := by
        by_cases draft : o.state = .draft
        · rw [touched_draft draft, ← zero i o found held draft]
        · exact touched_other draft
      have named : Names s n i o := ⟨found, held, damaged⟩
      rw [lookUp_touched clean named, htouched, setOrder_self held, lookUp_plain clean named (.inl rfl)]

/-! ### The other work that proceeds (R57, R71, R84, R151) -/

section
variable {s : State} (running : Running s)
include running

/-- Work that does not wait does not proceed (log entry 1). -/
theorem proceeds_none {work : WaitingWork} (same : proceed work s = s) : exec (.waitingReadProceeds work) s = .next s := by
  rw [exec_proceeds running, same, settle_calm running.noSignal running.noTrial]

theorem proceeds_running (work : WaitingWork) (runs : s.cycleRuns = true) :
    exec (.waitingReadProceeds work) s = .next s := proceeds_none running (if_pos runs)

variable (idle : s.cycleRuns = false)
include idle

theorem proceeds_selection (waits : s.engine.selectionWaiting = true) (engine : s.engine.state = .idle)
    (free : s.engine.holds.isEmpty = true) (phase : s.link.phase ≠ .resetting) :
    exec (.waitingReadProceeds .selection) s = .next (settle (boundary s)) := by
  have hboundary : boundary s = makeSelection s := by
    rw [boundary_selects free idle, ← engine]
    rfl
  rw [exec_proceeds running, hboundary]
  refine congrArg (fun t => Host.Outcome.next (settle t)) ((if_neg (Bool.eq_false_iff.mp idle)).trans ?_)
  exact if_pos ⟨waits, engine, phase⟩

theorem proceeds_switchTime (waits : s.engine.switchWaiting = true) :
    exec (.waitingReadProceeds .switchTime) s = .next { s with engine := { s.engine with
      switchWaiting := false, actuator := s.engine.active.other
      switchTimer := some (if s.store.general.bad = true then 20 else s.store.general.value 7) } } := by
  have hproceed : proceed .switchTime s = startSwitchTimer s :=
    (if_neg (Bool.eq_false_iff.mp idle)).trans (if_pos waits)
  rw [exec_proceeds running, hproceed, settle_calm (s := startSwitchTimer s) running.noSignal running.noTrial]
  rfl

theorem proceeds_result {u : Nat} {values : List Nat} (strip : s.cal.strip = .settling u values) :
    exec (.waitingReadProceeds .calibrationResult) s = .next (settle (takeResult u values s)) := by
  rw [exec_proceeds running]
  refine congrArg (fun t => Host.Outcome.next (settle t)) ((if_neg (Bool.eq_false_iff.mp idle)).trans ?_)
  rw [strip]

/-- What proceeds with no cycle running when nothing of the kind waits. -/
theorem proceeds_idle :
    (s.link.phase = .resetting → exec (.waitingReadProceeds .selection) s = .next s)
    ∧ (s.link.phase = .idle → exec (.waitingReadProceeds .request) s = .next s)
    ∧ (s.engine.selectionWaiting = false → exec (.waitingReadProceeds .selection) s = .next s)
    ∧ (s.engine.awaitingSettings = false → exec (.waitingReadProceeds .unitStart) s = .next s)
    ∧ (s.engine.switchWaiting = false → exec (.waitingReadProceeds .switchTime) s = .next s)
    ∧ (s.cal.strip = .none → exec (.waitingReadProceeds .calibrationResult) s = .next s) := by
  refine ⟨fun h => ?_, fun h => ?_, fun h => ?_, fun h => ?_, fun h => ?_, fun h => ?_⟩ <;>
    refine proceeds_none running ((if_neg (Bool.eq_false_iff.mp idle)).trans ?_)
  · exact if_neg fun ⟨_, _, phase⟩ => phase h
  · simp [resumeRequest, h]
  · simp [h]
  · simp [h]
  · simp [h]
  · simp [h]

end

/-! ### O57 -/

/-- What waits in its owning block proceeds as its row (R162). -/
theorem proceeds_rows {h : Header} {r : Request} {queued : Nat} {s : State} (running : Running s) (idle : s.cycleRuns = false)
    (phase : s.link.phase = .working { header := h, broadcast := false, request := r, queued, stage := .owner false }) :
    let goes := exec (.waitingReadProceeds .request) s
    let link := s.withPhase .idle
    (∀ place, r = .readTrain place → goes = exec (.readTrain h place) link
      ∧ (1 ≤ place → place ≤ 64 → goes = .next (s.answered h r .ok (trainItems s place))))
    ∧ (∀ surface, r = .readCal surface → goes = exec (.readCal h surface) link)
    ∧ (∀ start number, r = .readQueue start number → goes = exec (.readQueue h start number) link)
    ∧ (∀ address lab, r = .linkSetup address lab → goes = exec (.linkSetup h address lab) link)
    ∧ (∀ surface, r = .startCal surface → goes = exec (.startCal h surface) link)
    ∧ (CleanStorage s → ∀ n : Nat,
      (∀ i o, s.findOrder n = some i → s.order? i = some o → o.state = .draft → o.idle = 0) →
      (∀ item, r = .addLine n item → goes = exec (.addLine h n item) link)
      ∧ (∀ position item, r = .changeLine n position item → goes = exec (.changeLine h n position item) link)
      ∧ (r = .submit n → goes = exec (.submit h n) link)) := by
  intro goes link
  have asRow {c : Instr} {x : Reply × State} (hc : c.request? = some (h, r)) (answers : Answers x)
      (resumed : decideRequest h.source queued true r s = x)
      (fresh : decideRequest h.source s.link.queue.length false r s = x)
      (acts : (∀ x, exec c x = .next (serveActing h r (decideRequest h.source x.link.queue.length false r) x)) ∨
        (x.2.queue.signal = false ∧ x.2.orders.trialDue = false)) : goes = exec c link := by
    obtain ⟨status, body, hx⟩ := answers
    exact proceeds_as_row hc running idle phase (resumed.trans hx) (fresh.trans hx) acts
  have calm : s.queue.signal = false ∧ s.orders.trialDue = false := ⟨running.noSignal, running.noTrial⟩
  have noCycle : ¬ s.cycleRuns = true := Bool.eq_false_iff.mp idle
  refine ⟨?_, ?_, ?_, ?_, ?_, fun clean n zero => ⟨?_, ?_, ?_⟩⟩
  · rintro place rfl
    refine ⟨asRow (x := decideReadTrain place s) rfl (.ite (answers_refuse ..) ?_) rfl rfl (.inr ?_), fun low high => ?_⟩
    · rw [if_neg noCycle]
      exact answers_okay ..
    · unfold decideReadTrain
      rw [if_neg noCycle]
      split <;> exact calm
    · have hd : decideReadTrain place s = (.answer .ok (trainItems s place), s) := by
        unfold decideReadTrain
        rw [if_neg (by omega), if_neg noCycle]
        rfl
      rw [show goes = _ from proceeds_owner running idle phase ((if_neg Bool.false_ne_true).trans hd),
        settle_answered running.noSignal running.noTrial]
  · rintro surface rfl
    refine asRow (x := decideReadCal surface s) rfl (.ite (answers_refuse ..) ?_) rfl rfl (.inr ?_)
    · rw [if_neg noCycle]
      exact answers_okay ..
    · unfold decideReadCal
      rw [if_neg noCycle]
      split <;> exact calm
  · rintro start number rfl
    exact asRow rfl (decideReadQueue_answers idle start number) rfl rfl (.inl fun _ => rfl)
  · rintro address lab rfl
    refine asRow (x := decideLinkSetup address lab s) rfl (.ite (answers_refuse ..) ?_) rfl rfl (.inr ?_)
    · rw [idle, Bool.and_false, if_neg Bool.false_ne_true]
      exact answers_okay ..
    · unfold decideLinkSetup
      rw [idle, Bool.and_false, if_neg Bool.false_ne_true]
      split <;> exact calm
  · rintro surface rfl
    exact asRow rfl (decideStartCal_answers idle surface) rfl rfl (.inl fun _ => rfl)
  · rintro item rfl
    refine asRow rfl (decideAddLine_answers idle true n item) rfl ?_ (.inl fun _ => rfl)
    simp only [decideRequest, decideAddLine, Bool.not_false, Bool.not_true, lookUp_idleZero clean zero]
  · rintro position item rfl
    refine asRow rfl (decideChangeLine_answers idle true n position item) rfl ?_ (.inl fun _ => rfl)
    simp only [decideRequest, decideChangeLine, Bool.not_false, Bool.not_true, lookUp_idleZero clean zero]
  · rintro rfl
    refine asRow rfl (decideSubmit_answers idle true n) rfl ?_ (.inl fun _ => rfl)
    simp only [decideRequest, decideSubmit, Bool.not_false, Bool.not_true, lookUp_idleZero clean zero]

/-- A DRAFT whose SIZE sheet is BAD is answered so at the cycle's end (R7, R12). -/
theorem decideRequest_sheetBad {s : State} {n i : Nat} {o : Order} {r : Request} (clean : CleanStorage s)
    (idle : s.cycleRuns = false) (named : Names s n i o) (draft : o.state = .draft) (bad : s.store.size.bad = true)
    (hr : (∃ item, r = .addLine n item ∨ ∃ position, r = .changeLine n position item) ∨ (r = .submit n ∧ o.lines ≠ []))
    (source queued : Nat) : decideRequest source queued true r s = (.answer .sheetBad [], s) := by
  have found : lookUp n false s = (.order i o, s) := lookUp_plain clean named (.inl rfl)
  rcases hr with ⟨item, rfl | ⟨position, rfl⟩⟩ | ⟨rfl, lines⟩
  · simp [decideRequest, decideAddLine, found, idle, draft, bad, refuse]
  · simp [decideRequest, decideChangeLine, found, idle, draft, bad, refuse]
  · simp [decideRequest, decideSubmit, found, idle, draft, bad, lines, refuse]

/-- Settles O57: a waiting request is its block's decision made again, and no decision reads the link's phase
(`decideRequest_withPhase`). -/
theorem waitingWorkProceeds : Obligations.WaitingWorkProceeds := by
  unfold Obligations.WaitingWorkProceeds
  refine ⟨fun h s calm clean runs => ?_, fun f rest r s calm runs hq clock setUp other known read => ?_,
    fun h r queued damaged s running idle phase => ?_, fun f r s running idle setUp known read clock phase => ?_,
    fun s running => ⟨fun work runs => proceeds_running running work runs, fun idle => ?_⟩⟩
  · intro works about
    obtain ⟨hTrain, hCal, hQueue, hLink, hSetup, hStart⟩ := exec_others_wait h calm clean runs
    refine ⟨fun n position item c r hrow => ?_, hTrain, hCal, hQueue, hLink, hSetup,
      fun surface high good noStrip noAbout room => hStart surface high good noStrip ?_ room⟩
    · obtain ⟨hc, hr⟩ := sizeRow hrow
      exact exec_sizes_waits hc hr calm clean runs
    · exact Bool.eq_false_iff.mpr fun hb => noAbout ((stripAbout_iff s).mp hb)
  · intro h taken
    refine ⟨fun noSheet => ?_, fun sheet start count hr hs he low high => ?_, fun sheet start values hr hs he low high => ?_⟩
    · exact rights_wait calm runs hq clock setUp other read noSheet
    · obtain ⟨name, named⟩ := storeNamed_some hs he low high
      refine store_busy calm runs hq clock setUp other read (by rw [hr]; rfl) ?_
      simp [hr, decideRequest, decideStoreRead, named, show (s.frameTaken rest).cycleRuns = true from runs, refuse]
    · obtain ⟨name, named⟩ := storeNamed_some hs he low high
      refine store_busy calm runs hq clock setUp other read (by rw [hr]; rfl) ?_
      simp [hr, decideRequest, decideStoreWrite, named, show (s.frameTaken rest).cycleRuns = true from runs, refuse]
  · intro goes link
    refine ⟨?_, ?_⟩
    · rintro rfl
      exact (proceeds_owner running idle phase (if_pos rfl)).trans
        (congrArg Host.Outcome.next (settle_answered running.noSignal running.noTrial))
    · rintro rfl
      have answered {status : Status} {body : List Byte}
          (hd : decideRequest h.source queued true r s = (.answer status body, s)) : goes = .next (s.answered h r status body) :=
        (proceeds_owner running idle phase ((if_neg Bool.false_ne_true).trans hd)).trans
          (congrArg Host.Outcome.next (settle_answered running.noSignal running.noTrial))
      obtain ⟨hTrain, hCal, hQueue, hSetup, hStart, hSizes⟩ := proceeds_rows running idle phase
      refine ⟨hTrain, hCal, hQueue, hSetup, hStart, ?_, hSizes, fun clean n i o named draft bad hr => ?_⟩
      · intro hr
        refine answered ?_
        rw [hr]
        exact if_neg (Bool.eq_false_iff.mp idle)
      · exact answered (decideRequest_sheetBad clean idle named draft bad hr ..)
  · have ok : Calm ({ s with link := { s.link with phase := .idle, queue := f :: s.link.queue } } : State) :=
      ⟨accepts_iff.mpr ⟨running.power, rfl⟩, running.noSignal, running.noTrial⟩
    rw [exec_requestTaken ok rfl ((frame_passes (s := s.withPhase .idle) setUp read clock).trans (passRights_withPhase s .idle _ _ _ _)),
      exec_proceeds running, proceed_request idle]
    unfold resumeRequest
    rw [phase]
  · obtain ⟨hReset, hIdle, hSelection, hStart, hSwitch, hStrip⟩ := proceeds_idle running idle
    exact ⟨fun waits engine free phase => proceeds_selection running idle waits engine free phase, hReset,
      fun waits => proceeds_switchTime running idle waits, fun u values strip => proceeds_result running idle strip,
      hIdle, hSelection, hStart, hSwitch, hStrip⟩

end Sys2Proof.Machine
end

section
/-! The stop of the print path: what it reads and what it writes (R31, R40, R54, R55; for O59). -/

namespace Sys2Proof.Machine

/-! ### One unit in flight (R40) -/

section
variable {s : State} {id : Nat} {rush standard : List Nat} {u : PrintUnit}

theorem resetSpoil_free (h : s.unit? id = none) : resetSpoil id ((rush, standard), s) = ((rush, standard), s) := by
  simp only [resetSpoil, h]

theorem resetSpoil_strip (h : s.unit? id = some u) (strip : u.kind = .strip) :
    resetSpoil id ((rush, standard), s) = ((rush, standard), s.releaseUnit id) := by
  simp only [resetSpoil, h, strip, if_true]

variable (clean : CleanStorage s) (h : s.unit? id = some u) (print : u.kind ≠ .strip)
include clean h print

theorem resetSpoil_void (void : u.void = true) :
    resetSpoil id ((rush, standard), s) = ((rush, standard), voidGone u (s.releaseUnit id)) := by
  simp only [resetSpoil, h, if_neg print, readSlot_clean clean, void, if_true]
  cases u.slot <;> rfl

theorem resetSpoil_gone (valid : u.void = false) (gone : u.spoiled = true ∨ s.soundOrder u = none) :
    resetSpoil id ((rush, standard), s) = ((rush, standard), s.releaseUnit id) := by
  simp only [resetSpoil, h, if_neg print, readSlot_clean clean, valid, Bool.false_eq_true, if_false]
  rcases gone with spoiled | noOrder
  · cases u.slot <;> exact if_pos spoiled
  · cases u.slot <;> simp only [noOrder, ite_self]

theorem resetSpoil_reprinted {i : Nat} {o : Order} (valid : u.void = false) (fresh : u.spoiled = false)
    (slot : u.slot = some i) (sound : s.soundOrder u = some o) :
    resetSpoil id ((rush, standard), s) =
      let made := s.makeUnit (u.reprint u.lineage)
      ((rush ++ (if o.queueClass = .rush then made.1.toList else []),
        standard ++ (if o.queueClass = .standard then made.1.toList else [])),
        (made.2.releaseUnit id).setOrder i { o with spoils := satUp o.spoils 65535 }) := by
  simp only [resetSpoil, h, if_neg print, readSlot_clean clean, valid, fresh, Bool.false_eq_true, if_false, slot, sound]
  cases o.queueClass <;> simp

end

/-! ### What the stop of the path does not read (R54)

An operation `op` with `op (s.over r) = (op s).over r` for every `r` reads and writes the fields of `State.over` alone;
with `r = s` this says that it leaves every other field as it was. -/

/-- The state `r` with the slots, the units, the clock, the engine, the train and the calibration of `s`. -/
def State.over (s r : State) : State :=
  { r with
    orders := { r.orders with slots := s.orders.slots }
    clock := s.clock, engine := s.engine, transit := s.transit, cal := s.cal
    queue := { s.queue with runCount := r.queue.runCount, heldCause := r.queue.heldCause } }

section
variable (s r : State)

theorem over_self : s.over s = s := rfl

@[simp] theorem over_unit? (id : Nat) : (s.over r).unit? id = s.unit? id := rfl
@[simp] theorem over_soundOrder (u : PrintUnit) : (s.over r).soundOrder u = s.soundOrder u := rfl
@[simp] theorem over_unitOrder (u : PrintUnit) : (s.over r).unitOrder u = s.unitOrder u := rfl

theorem over_ite (c : Prop) [Decidable c] (s t r : State) :
    (if c then s else t).over r = if c then s.over r else t.over r := apply_ite (State.over · r) c s t

theorem releaseUnit_over (id : Nat) : (s.over r).releaseUnit id = (s.releaseUnit id).over r := rfl

theorem setOrder_over (i : Nat) (o : Order) : (s.over r).setOrder i o = (s.setOrder i o).over r := rfl

theorem releaseUnits_over (ids : List Nat) : (s.over r).releaseUnits ids = (s.releaseUnits ids).over r := by
  rw [releaseUnits_eq, releaseUnits_eq]
  rfl

theorem leaveQueue_over (ids : List Nat) : (s.over r).leaveQueue ids = (s.leaveQueue ids).over r := rfl

theorem joinHead_over (cls : OrderClass) (ids : List Nat) : (s.over r).joinHead cls ids = (s.joinHead cls ids).over r := by
  cases cls <;> rfl

theorem makeUnit_over (u : PrintUnit) : (s.over r).makeUnit u = ((s.makeUnit u).1, (s.makeUnit u).2.over r) := by
  unfold State.makeUnit
  rw [show (s.over r).queue.pool = s.queue.pool from rfl]
  split <;> rfl

variable {r}

theorem freeSlot_over (clean : CleanStorage r) (i : Nat) : (s.over r).freeSlot i = (s.freeSlot i).over r := by
  rw [freeSlot_clean (s := s.over r) clean]
  rfl

theorem voidGone_over (clean : CleanStorage r) (u : PrintUnit) : voidGone u (s.over r) = (voidGone u s).over r := by
  simp only [voidGone, over_unitOrder, setOrder_over, freeSlot_over _ clean]
  split
  · simp only [over_ite]
  · rfl

theorem resetSpoil_over (cleanS : CleanStorage s) (clean : CleanStorage r) (id : Nat) (made : List Nat × List Nat) :
    resetSpoil id (made, s.over r) = ((resetSpoil id (made, s)).1, (resetSpoil id (made, s)).2.over r) := by
  obtain ⟨rush, standard⟩ := made
  cases h : s.unit? id with
  | none => rw [resetSpoil_free h, resetSpoil_free (s := s.over r) h]
  | some u =>
    by_cases strip : u.kind = .strip
    · rw [resetSpoil_strip h strip, resetSpoil_strip (s := s.over r) h strip]
      rfl
    · cases void : u.void with
      | true =>
        rw [resetSpoil_void cleanS h strip void, resetSpoil_void (s := s.over r) clean h strip void,
          releaseUnit_over, voidGone_over _ clean]
      | false =>
        by_cases gone : u.spoiled = true ∨ s.soundOrder u = none
        · rw [resetSpoil_gone cleanS h strip void gone, resetSpoil_gone (s := s.over r) clean h strip void gone]
          rfl
        · obtain ⟨fresh, hsome⟩ := not_or.mp gone
          obtain ⟨o, sound⟩ := Option.ne_none_iff_exists'.mp hsome
          obtain ⟨i, slot, -⟩ := soundOrder_some.mp sound
          have fresh' : u.spoiled = false := by simpa using fresh
          rw [resetSpoil_reprinted cleanS h strip void fresh' slot sound,
            resetSpoil_reprinted (s := s.over r) clean h strip void fresh' slot sound, makeUnit_over]
          rfl

theorem resetSpoil_clean (clean : CleanStorage s) (id : Nat) (made : List Nat × List Nat) :
    CleanStorage (resetSpoil id (made, s)).2 := by
  have hframe := congrArg Prod.snd (resetSpoil_over s clean clean id made)
  rw [over_self] at hframe
  rw [hframe]
  exact clean

theorem resetSpoils_over (cleanS : CleanStorage s) (clean : CleanStorage r) (ids : List Nat) (made : List Nat × List Nat) :
    ids.foldl (fun acc id => resetSpoil id acc) (made, s.over r) =
      ((ids.foldl (fun acc id => resetSpoil id acc) (made, s)).1,
        (ids.foldl (fun acc id => resetSpoil id acc) (made, s)).2.over r) := by
  induction ids generalizing s made with
  | nil => rfl
  | cons id ids ih =>
    rw [List.foldl_cons, resetSpoil_over s cleanS clean, ih _ (resetSpoil_clean s cleanS id made)]
    rfl

theorem resetSpoilAll_over (cleanS : CleanStorage s) (clean : CleanStorage r) (ids : List Nat) :
    resetSpoilAll ids (s.over r) = (resetSpoilAll ids s).over r := by
  unfold resetSpoilAll
  simp only [resetSpoils_over s cleanS clean, joinHead_over]

theorem resetCalibration_over : resetCalibration (s.over r) = (resetCalibration s).over r := by
  unfold resetCalibration
  rw [show (s.over r).cal = s.cal from rfl]
  cases s.cal.strip <;> rfl

/-! ### The stop of the path (R54) -/

/-- The state with its queued strip gone (R54). -/
def State.stripGone (s : State) : State := (s.leaveQueue s.queue.strip).releaseUnits s.queue.strip

/-- The state with the strip and the units in flight gone, before the calibration is abandoned (R40, R54). -/
def State.flightGone (s : State) : State :=
  let spoiled := resetSpoilAll s.inFlight s.stripGone
  { spoiled with
    transit := { spoiled.transit with train := [], consecutiveBlind := 0, waitingMarks := [] }
    engine := { spoiled.engine with current := none } }

theorem stripGone_over : (s.over r).stripGone = s.stripGone.over r := by
  unfold State.stripGone
  rw [leaveQueue_over, releaseUnits_over]
  rfl

theorem stripGone_leaves : Leaves s s.stripGone := (Leaves.refl s).after_leaveQueue.after_releaseUnits

theorem stopPath_eq : stopPath s =
    { resetCalibration s.flightGone with queue := { (resetCalibration s.flightGone).queue with
      runCount := 0, heldCause := none } } := by
  have hflight : s.stripGone.inFlight = s.inFlight := by
    rw [State.inFlight, (stripGone_leaves s).transit, (stripGone_leaves s).engine]
    rfl
  unfold State.flightGone
  rw [← hflight]
  rfl

theorem flightGone_over (cleanS : CleanStorage s) (clean : CleanStorage r) :
    (s.over r).flightGone = s.flightGone.over r := by
  have cleanStrip : CleanStorage s.stripGone := by
    rw [← over_self s, stripGone_over]
    exact cleanS
  unfold State.flightGone
  rw [stripGone_over, resetSpoilAll_over _ cleanStrip clean]
  rfl

/-- Nothing that the stop of the path does depends on the rest of the part (R54). -/
theorem stopPath_over (cleanS : CleanStorage s) (clean : CleanStorage r) :
    stopPath (s.over r) = { (stopPath s).over r with queue := (stopPath s).queue } := by
  rw [stopPath_eq, stopPath_eq, flightGone_over s cleanS clean, resetCalibration_over]
  rfl

end

/-! ### The sections of the queue and the calibration while units are reset-spoiled -/

/-- The three sections of the queue and the Calibration Unit (R35, R141). -/
def State.sections (s : State) : List Nat × List Nat × List Nat × CalibrationUnit :=
  (s.queue.strip, s.queue.rush, s.queue.standard, s.cal)

section
variable {s : State}

theorem makeUnit_sections (u : PrintUnit) : (s.makeUnit u).2.sections = s.sections := by
  unfold State.makeUnit
  split <;> rfl

theorem voidGone_sections (u : PrintUnit) : (voidGone u s).sections = s.sections := by
  unfold voidGone
  split
  · split
    · dsimp only
      split <;> rfl
    · rfl
  · rfl

theorem resetSpoil_sections (clean : CleanStorage s) (id : Nat) (made : List Nat × List Nat) :
    (resetSpoil id (made, s)).2.sections = s.sections := by
  obtain ⟨rush, standard⟩ := made
  cases h : s.unit? id with
  | none => rw [resetSpoil_free h]
  | some u =>
    by_cases strip : u.kind = .strip
    · rw [resetSpoil_strip h strip]
      rfl
    · cases void : u.void with
      | true =>
        rw [resetSpoil_void clean h strip void]
        exact voidGone_sections (s := s.releaseUnit id) u
      | false =>
        by_cases gone : u.spoiled = true ∨ s.soundOrder u = none
        · rw [resetSpoil_gone clean h strip void gone]
          rfl
        · obtain ⟨fresh, hsome⟩ := not_or.mp gone
          obtain ⟨o, sound⟩ := Option.ne_none_iff_exists'.mp hsome
          obtain ⟨i, slot, -⟩ := soundOrder_some.mp sound
          rw [resetSpoil_reprinted clean h strip void (by simpa using fresh) slot sound]
          exact makeUnit_sections _

theorem resetSpoils_sections (clean : CleanStorage s) (ids : List Nat) (made : List Nat × List Nat) :
    (ids.foldl (fun acc id => resetSpoil id acc) (made, s)).2.sections = s.sections := by
  induction ids generalizing s made with
  | nil => rfl
  | cons id ids ih => exact (ih (resetSpoil_clean s clean id made) _).trans (resetSpoil_sections clean id made)

end

/-! ### The state that the stop of the path leaves (R31, R54, R55) -/

/-- The units that an empty train and engine leave to the queue, by class. -/
def State.reprints (s : State) : (List Nat × List Nat) × State :=
  s.inFlight.foldl (fun acc id => resetSpoil id acc) (([], []), s.stripGone)

/-- The surface of a strip in whatever progress (R155). -/
def StripRecord.surface : StripRecord → Option Nat
  | .none => Option.none
  | .out u _ _ => some u
  | .reading u _ _ _ => some u
  | .settling u _ => some u

/-- The unit record of a strip that is read (R150). -/
def StripRecord.readUnit : StripRecord → Option Nat
  | .reading _ id _ _ => some id
  | _ => Option.none

/-- The surfaces after a start or reset has abandoned the calibration (R155). -/
def State.abandoned (s : State) : List SurfaceCal :=
  match s.cal.strip.surface with
  | none => s.cal.surfaces
  | some u => s.cal.surfaces.set u { s.surface u with last := some (abandonedResult .reset s.shopTime) }

/-- The pool after a strip that is read has returned its record (R155). -/
def State.poolAfterRead (s : State) (pool : List (Option PrintUnit)) : List (Option PrintUnit) :=
  match s.cal.strip.readUnit with
  | none => pool
  | some id => pool.set id none

theorem resetCalibration_eq {s : State} (signal : s.queue.signal = true) : resetCalibration s = { s with
    queue := { s.queue with pool := s.poolAfterRead s.queue.pool, signal := true }
    cal := { s.cal with strip := .none, filter := .noReading, surfaces := s.abandoned } } := by
  unfold resetCalibration State.poolAfterRead State.abandoned
  rw [← signal]
  cases s.cal.strip with
  | none => rfl
  | out => rfl
  | reading => rw [signal]; rfl
  | settling => rfl

/-- The stop of the path, its reset-spoiled units and the orders they leave named apart. -/
theorem stopPath_spec {s : State} (clean : CleanStorage s) :
    let fold := s.reprints
    stopPath s = { s with
      orders := { s.orders with slots := fold.2.orders.slots }
      queue := { s.queue with
        pool := s.poolAfterRead fold.2.queue.pool, figures := fold.2.queue.figures, strip := [], runCount := 0
        heldCause := none, signal := true
        rush := fold.1.1 ++ s.queue.rush.filter (fun id => !s.queue.strip.contains id)
        standard := fold.1.2 ++ s.queue.standard.filter (fun id => !s.queue.strip.contains id) }
      transit := { s.transit with train := [], consecutiveBlind := 0, waitingMarks := [] }
      engine := { s.engine with current := none }
      cal := { strip := .none, filter := .noReading, surfaces := s.abandoned } } := by
  intro fold
  have cleanStrip : CleanStorage s.stripGone := by
    rw [← over_self s, stripGone_over]
    exact clean
  have hframe : fold.2 = fold.2.over s.stripGone :=
    congrArg Prod.snd (resetSpoils_over s.stripGone cleanStrip cleanStrip s.inFlight ([], []))
  have hsections : fold.2.sections = s.stripGone.sections := resetSpoils_sections cleanStrip s.inFlight ([], [])
  have hleaves : Leaves s fold.2 := (stripGone_leaves s).trans (Leaves.after_resetSpoils (Leaves.refl _))
  simp only [State.sections, Prod.mk.injEq] at hsections
  obtain ⟨hstrip, hrush, hstandard, hcal⟩ := hsections
  have hgone : s.stripGone = { s with queue := { s.queue with
      pool := freeRecords s.queue.pool s.queue.strip, signal := s.queue.signal || decide (s.queue.strip ≠ [])
      strip := []
      rush := s.queue.rush.filter (fun id => !s.queue.strip.contains id)
      standard := s.queue.standard.filter (fun id => !s.queue.strip.contains id) } } := by
    have hnil : s.queue.strip.filter (fun id => !s.queue.strip.contains id) = [] := by simp
    rw [State.stripGone, releaseUnits_eq, State.leaveQueue]
    dsimp only
    rw [hnil]
  have hflight : s.flightGone = { s with
      orders := { s.orders with slots := fold.2.orders.slots }
      queue := { s.queue with
        pool := fold.2.queue.pool, figures := fold.2.queue.figures, strip := [], signal := true
        rush := fold.1.1 ++ s.queue.rush.filter (fun id => !s.queue.strip.contains id)
        standard := fold.1.2 ++ s.queue.standard.filter (fun id => !s.queue.strip.contains id) }
      transit := { s.transit with train := [], consecutiveBlind := 0, waitingMarks := [] }
      engine := { s.engine with current := none } } := by
    have hfold : fold.2 = { s with
        orders := { s.orders with slots := fold.2.orders.slots }
        queue := { s.queue with
          pool := fold.2.queue.pool, figures := fold.2.queue.figures, signal := fold.2.queue.signal, strip := []
          rush := s.queue.rush.filter (fun id => !s.queue.strip.contains id)
          standard := s.queue.standard.filter (fun id => !s.queue.strip.contains id) } } := by
      refine hframe.trans ?_
      unfold State.over
      dsimp only
      rw [hleaves.clock, hleaves.engine, hleaves.transit, hcal, hstrip, hrush, hstandard, hgone]
    have hall : resetSpoilAll s.inFlight s.stripGone = (fold.2.joinHead .rush fold.1.1).joinHead .standard fold.1.2 := rfl
    unfold State.flightGone
    rw [hall, joinHead_eq, joinHead_eq, hfold]
    rfl
  rw [stopPath_eq, hflight, resetCalibration_eq rfl]
  rfl

end Sys2Proof.Machine
end

section
/-! The units in flight that the stop of the path reset-spoils, and their orders (R22, R40; for O59). -/

namespace Sys2Proof.Machine

/-! ### The pool (R33, R40) -/

/-- Whether a unit in flight is replaced by a reprint in a class's section: a print neither VOID nor SPOILED, of a sound
order of that class (R40). -/
def State.reprinted (s : State) (cls : OrderClass) (id : Nat) : Bool :=
  (s.unit? id).any fun u => u.kind != .strip && !u.void && !u.spoiled
    && (s.unitOrder u).any fun o => o.state != .damaged && o.queueClass == cls

/-- The reprint that replaces a unit (R40). -/
def State.reprintOf (s : State) (id : Nat) : Option PrintUnit :=
  (s.unit? id).map fun u => { u with kind := .reprint, place := .queue, exposure := none }

/-- The reprints made for a class. -/
def madeFor (made : List Nat × List Nat) : OrderClass → List Nat
  | .rush => made.1
  | .standard => made.2

/-- The reprints made with one more for a class. -/
def madeWith (made : List Nat × List Nat) (cls : OrderClass) (id : Nat) : List Nat × List Nat :=
  (made.1 ++ (if cls = .rush then [id] else []), made.2 ++ (if cls = .standard then [id] else []))

theorem madeFor_madeWith (made : List Nat × List Nat) (cls other : OrderClass) (id : Nat) :
    madeFor (madeWith made cls id) other = madeFor made other ++ (if cls = other then [id] else []) := by
  cases other <;> rfl

theorem mem_madeWith (made : List Nat × List Nat) (cls : OrderClass) (id k : Nat) :
    k ∈ (madeWith made cls id).1 ++ (madeWith made cls id).2 ↔ k ∈ made.1 ++ made.2 ∨ k = id := by
  cases cls <;> simp [madeWith] <;> tauto

theorem nodup_madeWith {made : List Nat × List Nat} (h : (made.1 ++ made.2).Nodup) (cls : OrderClass) {id : Nat}
    (new : id ∉ made.1 ++ made.2) : ((madeWith made cls id).1 ++ (madeWith made cls id).2).Nodup := by
  have hperm : ((madeWith made cls id).1 ++ (madeWith made cls id).2).Perm (id :: (made.1 ++ made.2)) := by
    cases cls with
    | rush => simp [madeWith]
    | standard => simpa [madeWith] using List.perm_append_comm (l₁ := made.1 ++ made.2) (l₂ := [id])
  exact hperm.nodup_iff.mpr (List.nodup_cons.mpr ⟨new, h⟩)

/-- The pool after the units `done` of the state `s` are reset-spoiled, the reprints `made` (R40). -/
structure PoolSpec (s : State) (done : List Nat) (made : List Nat × List Nat) (pool : List (Option PrintUnit)) : Prop where
  replaced : ∀ cls, (madeFor made cls).map (recordOf pool) = (done.filter (s.reprinted cls)).map s.reprintOf
  nodup    : (made.1 ++ made.2).Nodup
  origin   : ∀ id ∈ made.1 ++ made.2, s.unit? id = none ∨ id ∈ done
  others   : ∀ id, id ∉ made.1 ++ made.2 → recordOf pool id = if id ∈ done then none else s.unit? id
  free     : ∃ free < pool.length, recordOf pool free = none

section
variable {s : State} {done : List Nat} {made : List Nat × List Nat} {pool : List (Option PrintUnit)} {id : Nat} {u : PrintUnit}

theorem PoolSpec.not_made (h : PoolSpec s done made pool) (new : id ∉ done) (hu : s.unit? id = some u) :
    id ∉ made.1 ++ made.2 := by
  intro hmem
  rcases h.origin id hmem with hnone | hdone
  · rw [hu] at hnone
    cases hnone
  · exact new hdone

theorem PoolSpec.live (h : PoolSpec s done made pool) (new : id ∉ done) (hu : s.unit? id = some u) :
    recordOf pool id = some u := by
  rw [h.others id (h.not_made new hu), if_neg new, hu]

theorem PoolSpec.made_live (h : PoolSpec s done made pool) (hmem : id ∈ made.1 ++ made.2) :
    (recordOf pool id).isSome = true := by
  obtain ⟨cls, hcls⟩ : ∃ cls, id ∈ madeFor made cls := (List.mem_append.mp hmem).elim (⟨.rush, ·⟩) (⟨.standard, ·⟩)
  have hrecord := List.mem_map_of_mem (f := recordOf pool) hcls
  rw [h.replaced cls] at hrecord
  obtain ⟨k, hk, hrec⟩ := List.mem_map.mp hrecord
  obtain ⟨x, hx, -⟩ := (Option.any_eq_true _ _).mp (List.mem_filter.mp hk).2
  rw [← hrec, State.reprintOf, hx]
  rfl

/-- A unit that is not replaced returns its record (R40). -/
theorem PoolSpec.release (h : PoolSpec s done made pool) (new : id ∉ done) (hu : s.unit? id = some u)
    (hno : ∀ cls, s.reprinted cls id = false) : PoolSpec s (done ++ [id]) made (pool.set id none) where
  replaced cls := by
    have hsame : (madeFor made cls).map (recordOf (pool.set id none)) = (madeFor made cls).map (recordOf pool) := by
      refine List.map_congr_left fun k hk => recordOf_set_ne pool none ?_
      rintro rfl
      refine h.not_made new hu (List.mem_append.mpr ?_)
      cases cls
      · exact .inr hk
      · exact .inl hk
    rw [hsame, h.replaced cls, List.filter_append, List.filter_cons_of_neg (by simp [hno cls]), List.filter_nil, List.append_nil]
  nodup := h.nodup
  origin k hk := (h.origin k hk).imp_right fun hd => List.mem_append_left _ hd
  others k hk := by
    rw [recordOf_set_none, h.others k hk]
    by_cases hkid : k = id <;> simp [hkid]
  free := ⟨id, by rw [List.length_set]; exact recordOf_lt (h.live new hu), by rw [recordOf_set_none, if_pos rfl]⟩

/-- A unit that is replaced: its reprint takes the lowest FREE record (R33, R40). -/
theorem PoolSpec.reprint (h : PoolSpec s done made pool) (new : id ∉ done) (hu : s.unit? id = some u) {c : OrderClass}
    (hyes : ∀ cls, s.reprinted cls id = decide (c = cls)) {m : Nat} (hm : pool.findIdx? Option.isNone = some m)
    {v : PrintUnit} (hv : s.reprintOf id = some v) :
    PoolSpec s (done ++ [id]) (madeWith made c m) ((pool.set m (some v)).set id none) := by
  obtain ⟨hlt, hfree, -⟩ := findIdx?_free.mp hm
  have hne : m ≠ id := by
    rintro rfl
    rw [h.live new hu] at hfree
    cases hfree
  have hself : recordOf ((pool.set m (some v)).set id none) m = some v := by
    rw [recordOf_set_none, if_neg hne, recordOf_set_self hlt]
  have hother (k : Nat) (hk : k ≠ m) :
      recordOf ((pool.set m (some v)).set id none) k = if k = id then none else recordOf pool k := by
    rw [recordOf_set_none, recordOf_set_ne pool _ hk]
  have hnew : m ∉ made.1 ++ made.2 := fun hmem => by
    have := h.made_live hmem
    rw [hfree] at this
    cases this
  refine ⟨fun cls => ?_, nodup_madeWith h.nodup c hnew, fun k hk => ?_, fun k hk => ?_, id, ?_, ?_⟩
  · have hsame : (madeFor made cls).map (recordOf ((pool.set m (some v)).set id none)) =
        (madeFor made cls).map (recordOf pool) := by
      refine List.map_congr_left fun k hk => ?_
      have hin : k ∈ made.1 ++ made.2 := by
        cases cls
        · exact List.mem_append_right _ hk
        · exact List.mem_append_left _ hk
      rw [hother k fun hkm => hnew (hkm ▸ hin), if_neg fun hkid : k = id => h.not_made new hu (hkid ▸ hin)]
    rw [madeFor_madeWith, List.map_append, hsame, h.replaced cls, List.filter_append, List.map_append]
    congr 1
    by_cases hc : c = cls
    · rw [if_pos hc, List.filter_cons_of_pos (by simp [hyes, hc]), List.filter_nil, List.map_singleton, List.map_singleton,
        hself, hv]
    · rw [if_neg hc, List.filter_cons_of_neg (by simp [hyes, hc])]
      rfl
  · rcases (mem_madeWith ..).mp hk with hold | rfl
    · exact (h.origin k hold).imp_right fun hd => List.mem_append_left _ hd
    · rw [h.others k hnew] at hfree
      split at hfree
      · next hd => exact .inr (List.mem_append_left _ hd)
      · exact .inl hfree
  · obtain ⟨hold, hkm⟩ := not_or.mp fun hor => hk ((mem_madeWith ..).mpr hor)
    rw [hother k hkm, h.others k hold]
    by_cases hkid : k = id <;> simp [hkid]
  · rw [List.length_set, List.length_set]
    exact recordOf_lt (h.live new hu)
  · rw [hother id hne.symm, if_pos rfl]

end

/-! ### The orders (R16, R22, R40) -/

/-- Whether a unit in flight counts for an order: as one that is VOID, or as one that is spoiled now (R22, R40). -/
def State.counts (s : State) (i number : Nat) (void : Bool) (id : Nat) : Bool :=
  (s.unit? id).any fun u => u.kind != .strip && u.void == void && (void || !u.spoiled) && u.isOf i number

/-- An order whose units have left the path: `spoiled` of them spoiled now, `voids` of them VOID (R16, R22). -/
def Order.afterFlight (o : Order) (spoiled voids : Nat) : Option Order :=
  if o.state = .damaged then some o
  else if o.state = .cancelling then
    if voids = 0 then some o
    else if o.voids.getD 0 ≤ voids then none
    else some { o with voids := some (o.voids.getD 0 - voids) }
  else some { o with spoils := Nat.repeat (fun n => min (n + 1) 65535) spoiled o.spoils }

/-- An order, one of whose VOID units has left the path (R22). -/
def Order.voidLess (o : Order) (number : Option Nat) : Option Order :=
  if number = some o.number ∧ o.state = .cancelling then
    if o.voids.getD 0 - 1 = 0 then none else some { o with voids := some (o.voids.getD 0 - 1) }
  else some o

theorem afterFlight_same {o x : Order} {spoiled voids : Nat} (h : o.afterFlight spoiled voids = some x) :
    x.number = o.number ∧ x.state = o.state ∧ x.queueClass = o.queueClass := by
  unfold Order.afterFlight at h
  split at h
  · cases h
    exact ⟨rfl, rfl, rfl⟩
  · split at h
    · split at h
      · cases h
        exact ⟨rfl, rfl, rfl⟩
      · split at h
        · cases h
        · cases h
          exact ⟨rfl, rfl, rfl⟩
    · cases h
      exact ⟨rfl, rfl, rfl⟩

theorem afterFlight_void (o : Order) (spoiled voids : Nat) :
    (o.afterFlight spoiled voids).bind (·.voidLess (some o.number)) = o.afterFlight spoiled (voids + 1) := by
  unfold Order.afterFlight
  by_cases damaged : o.state = .damaged
  · simp [damaged, Order.voidLess]
  · by_cases cancelling : o.state = .cancelling
    · rw [if_neg damaged, if_pos cancelling, if_neg damaged, if_pos cancelling, if_neg (Nat.add_one_ne_zero voids)]
      have voidLess (n : Nat) : ({ o with voids := some n } : Order).voidLess (some o.number) =
          if n - 1 = 0 then none else some { o with voids := some (n - 1) } := if_pos ⟨rfl, cancelling⟩
      by_cases first : voids = 0
      · subst first
        rw [if_pos rfl, Option.bind_some, Order.voidLess, if_pos ⟨rfl, cancelling⟩]
        exact if_congr (by omega) rfl (by rw [Nat.zero_add])
      · rw [if_neg first]
        by_cases none : o.voids.getD 0 ≤ voids
        · rw [if_pos none, if_pos (by omega)]
          rfl
        · rw [if_neg none, Option.bind_some, voidLess]
          exact if_congr (by omega) rfl (by rw [Nat.sub_sub])
    · simp [damaged, cancelling, Order.voidLess]

theorem afterFlight_other {o : Order} {number : Option Nat} (h : number ≠ some o.number) (spoiled voids : Nat) :
    (o.afterFlight spoiled voids).bind (·.voidLess number) = o.afterFlight spoiled voids := by
  cases hx : o.afterFlight spoiled voids with
  | none => rfl
  | some x =>
    obtain ⟨hnumber, -⟩ := afterFlight_same hx
    exact if_neg fun hn => h (hnumber ▸ hn.1)

theorem afterFlight_spoil {o x : Order} {spoiled voids : Nat} (sound : o.state ≠ .damaged) (active : o.state ≠ .cancelling)
    (h : o.afterFlight spoiled voids = some x) :
    o.afterFlight (spoiled + 1) voids = some { x with spoils := satUp x.spoils 65535 } := by
  unfold Order.afterFlight at h ⊢
  rw [if_neg sound, if_neg active] at h ⊢
  cases h
  rfl

section
variable {s : State}

/-- A slot written or freed. -/
theorem order?_slotSet {t : State} {i : Nat} {x : Option Order} (hi : i < s.orders.slots.length)
    (ht : t.orders.slots = s.orders.slots.set i x) (k : Nat) : t.order? k = if i = k then x else s.order? k := by
  simp only [State.order?, ht, List.getD_eq_getElem?_getD, List.getElem?_set]
  split
  · simp
  · rfl

theorem figures?_freeSlot (i k : Nat) : (s.freeSlot i).figures? k = if i = k then none else s.figures? k := by
  simp only [State.figures?, State.freeSlot, List.getD_eq_getElem?_getD, List.getElem?_set]
  split
  · split <;> rfl
  · rfl

theorem unitOrder_some {u : PrintUnit} {o : Order} : s.unitOrder u = some o ↔
    ∃ i, u.slot = some i ∧ s.order? i = some o ∧ u.number = some o.number := by
  unfold State.unitOrder
  cases u.slot with
  | none => simp
  | some i => simp [Option.filter_eq_some_iff]

theorem voidGone_acts {u : PrintUnit} {i : Nat} {o : Order} (slot : u.slot = some i) (ho : s.order? i = some o)
    (number : u.number = some o.number) (cancelling : o.state = .cancelling) :
    voidGone u s = if o.voids.getD 0 - 1 = 0 then s.freeSlot i
      else s.setOrder i { o with voids := some (o.voids.getD 0 - 1) } := by
  simp only [voidGone, slot, unitOrder_some.mpr ⟨i, slot, ho, number⟩, if_pos cancelling]

theorem voidGone_idle {u : PrintUnit} (h : ∀ i o, u.slot = some i → s.order? i = some o →
    ¬(u.number = some o.number ∧ o.state = .cancelling)) : voidGone u s = s := by
  unfold voidGone
  split
  · next i o slot order =>
    obtain ⟨k, hk, ho, number⟩ := unitOrder_some.mp order
    exact if_neg fun hc => h k o hk ho ⟨number, hc⟩
  · rfl

/-- The orders and the figures once a VOID unit has left the path (R22, R34). -/
theorem voidGone_spec (u : PrintUnit) :
    (∀ k, (voidGone u s).order? k = if u.slot = some k then (s.order? k).bind (·.voidLess u.number) else s.order? k)
    ∧ ∀ k, (voidGone u s).figures? k =
      if (s.order? k).isSome = true ∧ (voidGone u s).order? k = none then none else s.figures? k := by
  by_cases acts : ∃ i o, u.slot = some i ∧ s.order? i = some o ∧ u.number = some o.number ∧ o.state = .cancelling
  · obtain ⟨i, o, slot, ho, number, cancelling⟩ := acts
    have hless : o.voidLess u.number = if o.voids.getD 0 - 1 = 0 then none
        else some { o with voids := some (o.voids.getD 0 - 1) } := if_pos ⟨number, cancelling⟩
    have horder (k : Nat) : (voidGone u s).order? k = if i = k then o.voidLess u.number else s.order? k := by
      refine order?_slotSet (order?_lt ho) ?_ k
      rw [voidGone_acts slot ho number cancelling, hless]
      split <;> rfl
    have hfigures (k : Nat) : (voidGone u s).figures? k =
        if i = k ∧ o.voidLess u.number = none then none else s.figures? k := by
      rw [voidGone_acts slot ho number cancelling, hless]
      by_cases last : o.voids.getD 0 - 1 = 0
      · simp only [if_pos last, figures?_freeSlot, and_true]
      · simp only [if_neg last, reduceCtorEq, and_false, if_false]
        rfl
    refine ⟨fun k => ?_, fun k => ?_⟩
    · rw [horder k, slot]
      by_cases hk : i = k
      · subst hk
        rw [if_pos rfl, if_pos rfl, ho]
        rfl
      · rw [if_neg hk, if_neg (by simpa using hk)]
    · rw [hfigures k, horder k]
      by_cases hk : i = k
      · subst hk
        simp [ho]
      · rw [if_neg (by simp [hk]), if_neg hk, if_neg]
        rintro ⟨hsome, hnone⟩
        rw [hnone] at hsome
        cases hsome
  · have hidle : voidGone u s = s := voidGone_idle fun i o slot ho hc => acts ⟨i, o, slot, ho, hc⟩
    rw [hidle]
    refine ⟨fun k => ?_, fun k => ?_⟩
    · split
      · next slot =>
        cases ho : s.order? k with
        | none => rfl
        | some o => exact (if_neg fun hc => acts ⟨k, o, slot, ho, hc⟩).symm
      · rfl
    · rw [if_neg]
      rintro ⟨hsome, hnone⟩
      rw [hnone] at hsome
      cases hsome

/-- What the stop of the path does to the rest of the queue is for the pool alone. -/
theorem voidGone_pool (u : PrintUnit) : (voidGone u s).queue.pool = s.queue.pool := by
  unfold voidGone
  split
  · split
    · dsimp only
      split <;> rfl
    · rfl
  · rfl

end

/-- The orders and their figures after the units `done` of the state `s` are reset-spoiled (R16, R22, R34). -/
structure OrdersSpec (s : State) (done : List Nat) (t : State) : Prop where
  orders  : ∀ i, t.order? i = (s.order? i).bind fun o =>
    o.afterFlight (done.countP (s.counts i o.number false)) (done.countP (s.counts i o.number true))
  figures : ∀ i, t.figures? i = if (s.order? i).isSome = true ∧ t.order? i = none then none else s.figures? i

section
variable {s t : State} {done : List Nat} {id : Nat} {u : PrintUnit}

theorem counts_eq (hu : s.unit? id = some u) (i n : Nat) (void : Bool) :
    s.counts i n void id = (u.kind != .strip && u.void == void && (void || !u.spoiled) && u.isOf i n) := by
  rw [State.counts, hu]
  rfl

/-- A unit that counts for no order leaves the orders alone. -/
theorem OrdersSpec.same (h : OrdersSpec s done t) {t' : State} (hno : ∀ i o void, s.order? i = some o →
    o.state ≠ .damaged → s.counts i o.number void id = false)
    (ho : ∀ i, t'.order? i = t.order? i) (hf : ∀ i, t'.figures? i = t.figures? i) : OrdersSpec s (done ++ [id]) t' where
  orders i := by
    rw [ho i, h.orders i]
    cases hs : s.order? i with
    | none => rfl
    | some o =>
      by_cases damaged : o.state = .damaged
      · simp [Order.afterFlight, damaged]
      · simp [List.countP_append, hno i o _ hs damaged]
  figures i := by rw [hf i, h.figures i, ho i]

/-- A VOID unit leaves the path (R22). -/
theorem OrdersSpec.void (h : OrdersSpec s done t) (hu : s.unit? id = some u) (print : u.kind ≠ .strip) (void : u.void = true) :
    OrdersSpec s (done ++ [id]) (voidGone u (t.releaseUnit id)) := by
  obtain ⟨horders, hfigures⟩ := voidGone_spec (s := t.releaseUnit id) u
  have hafter (i : Nat) : (voidGone u (t.releaseUnit id)).order? i = (s.order? i).bind fun o =>
      o.afterFlight ((done ++ [id]).countP (s.counts i o.number false)) ((done ++ [id]).countP (s.counts i o.number true)) := by
    rw [horders i, show (t.releaseUnit id).order? i = t.order? i from rfl, h.orders i]
    cases hs : s.order? i with
    | none => split <;> rfl
    | some o =>
      have hspoiled : s.counts i o.number false id = false := by simp [counts_eq hu, void]
      have hvoid : s.counts i o.number true id = u.isOf i o.number := by simp [counts_eq hu, void, print]
      simp only [Option.bind_some, List.countP_append, List.countP_singleton, hspoiled, hvoid, Bool.false_eq_true, if_false,
        Nat.add_zero]
      by_cases slot : u.slot = some i
      · rw [if_pos slot]
        by_cases number : u.number = some o.number
        · have hits : u.isOf i o.number = true := by simp [PrintUnit.isOf, slot, number]
          rw [if_pos hits, number, afterFlight_void]
        · have hmiss : ¬ u.isOf i o.number = true := by simp [PrintUnit.isOf, number]
          rw [if_neg hmiss, afterFlight_other number, Nat.add_zero]
      · have hmiss : ¬ u.isOf i o.number = true := by simp [PrintUnit.isOf, slot]
        rw [if_neg slot, if_neg hmiss, Nat.add_zero]
  refine ⟨hafter, fun i => ?_⟩
  rw [hfigures i, show (t.releaseUnit id).figures? i = t.figures? i from rfl,
    show (t.releaseUnit id).order? i = t.order? i from rfl, h.figures i]
  have hsub : (t.order? i).isSome = true → (s.order? i).isSome = true := by
    rw [h.orders i]
    cases s.order? i <;> simp
  have hgone : t.order? i = none → (voidGone u (t.releaseUnit id)).order? i = none := by
    intro hnone
    rw [horders i, show (t.releaseUnit id).order? i = t.order? i from rfl, hnone]
    split <;> rfl
  cases ht : t.order? i with
  | none => simp [hgone ht]
  | some x =>
    rw [ht] at hsub
    simp [hsub rfl]

/-- A unit is spoiled: its order's spoils rise (R16). -/
theorem OrdersSpec.spoil (h : OrdersSpec s done t) (hu : s.unit? id = some u) (print : u.kind ≠ .strip)
    (valid : u.void = false) (fresh : u.spoiled = false) {i : Nat} {o x : Order} (slot : u.slot = some i)
    (hs : s.order? i = some o) (number : u.number = some o.number) (sound : o.state ≠ .damaged)
    (active : o.state ≠ .cancelling) (hx : t.order? i = some x) {t' : State}
    (hslots : t'.orders.slots = t.orders.slots.set i (some { x with spoils := satUp x.spoils 65535 }))
    (hf : t'.queue.figures = t.queue.figures) : OrdersSpec s (done ++ [id]) t' := by
  have ht' := order?_slotSet (order?_lt hx) hslots
  refine ⟨fun k => ?_, fun k => ?_⟩
  · rw [ht' k]
    by_cases hk : i = k
    · subst hk
      rw [if_pos rfl, hs, Option.bind_some]
      have hspoiled : s.counts i o.number false id = true := by
        simp [counts_eq hu, valid, fresh, print, PrintUnit.isOf, slot, number]
      have hvoid : s.counts i o.number true id = false := by simp [counts_eq hu, valid]
      simp only [List.countP_append, List.countP_singleton, hspoiled, hvoid, if_true, Bool.false_eq_true, if_false, Nat.add_zero]
      have hbefore := h.orders i
      rw [hx, hs, Option.bind_some] at hbefore
      exact (afterFlight_spoil sound active hbefore.symm).symm
    · rw [if_neg hk, h.orders k]
      cases hsk : s.order? k with
      | none => rfl
      | some y =>
        have hmiss (b : Bool) : s.counts k y.number b id = false := by simp [counts_eq hu, PrintUnit.isOf, slot, hk]
        simp [List.countP_append, hmiss]
  · rw [show t'.figures? k = t.figures? k from congrArg (·.getD k none) hf, h.figures k, ht' k]
    by_cases hk : i = k
    · subst hk
      simp [hx]
    · rw [if_neg hk]

end

/-! ### All units in flight (R40) -/

/-- The state after the units `done` are reset-spoiled. -/
structure FlightSpec (s : State) (done : List Nat) (acc : (List Nat × List Nat) × State) : Prop where
  pool   : PoolSpec s done acc.1 acc.2.queue.pool
  orders : OrdersSpec s done acc.2
  clean  : CleanStorage acc.2

/-- A unit that is neither VOID nor SPOILED is reprinted as it is (R40). -/
theorem reprint_fresh {u : PrintUnit} (valid : u.void = false) (fresh : u.spoiled = false) :
    u.reprint u.lineage = { u with kind := .reprint, place := .queue, exposure := none } := by
  rw [PrintUnit.reprint, ← fresh, ← (fresh.trans valid.symm : u.spoiled = u.void)]

/-- One unit more (R40). -/
theorem FlightSpec.step {s : State} {done : List Nat} {acc : (List Nat × List Nat) × State} {id : Nat} {u : PrintUnit}
    (h : FlightSpec s done acc) (new : id ∉ done) (hu : s.unit? id = some u)
    (voided : ∀ o, s.unitOrder u = some o → o.state = .cancelling → u.void = true) :
    FlightSpec s (done ++ [id]) (resetSpoil id acc) := by
  obtain ⟨made, t⟩ := acc
  obtain ⟨hpool, horders, clean⟩ := h
  have hut : t.unit? id = some u := hpool.live new hu
  have cleanStep := resetSpoil_clean t clean id made
  have hreprinted (cls : OrderClass) : s.reprinted cls id = (u.kind != .strip && !u.void && !u.spoiled
      && (s.unitOrder u).any fun o => o.state != .damaged && o.queueClass == cls) := by
    rw [State.reprinted, hu]
    rfl
  obtain ⟨rush, standard⟩ := made
  by_cases strip : u.kind = .strip
  · have hstep := resetSpoil_strip (rush := rush) (standard := standard) hut strip
    rw [hstep] at cleanStep ⊢
    exact ⟨hpool.release new hu fun cls => by simp [hreprinted, strip],
      horders.same (fun i o void _ _ => by simp [counts_eq hu, strip]) (fun _ => rfl) fun _ => rfl, cleanStep⟩
  cases void : u.void with
  | true =>
    have hstep := resetSpoil_void (rush := rush) (standard := standard) clean hut strip void
    rw [hstep] at cleanStep ⊢
    refine ⟨?_, horders.void hu strip void, cleanStep⟩
    have hrelease := hpool.release new hu fun cls => by simp [hreprinted, void]
    show PoolSpec s (done ++ [id]) (rush, standard) (voidGone u (t.releaseUnit id)).queue.pool
    rw [voidGone_pool]
    exact hrelease
  | false =>
    by_cases spoiled : u.spoiled = true
    · have hstep := resetSpoil_gone (rush := rush) (standard := standard) clean hut strip void (.inl spoiled)
      rw [hstep] at cleanStep ⊢
      refine ⟨hpool.release new hu fun cls => by simp [hreprinted, spoiled],
        horders.same (fun i o b _ _ => ?_) (fun _ => rfl) fun _ => rfl, cleanStep⟩
      cases b <;> simp [counts_eq hu, void, spoiled]
    · have fresh : u.spoiled = false := by simpa using spoiled
      by_cases sound : ∃ o, s.unitOrder u = some o ∧ o.state ≠ .damaged
      · obtain ⟨o, horder, notDamaged⟩ := sound
        obtain ⟨i, slot, hs, number⟩ := unitOrder_some.mp horder
        have active : o.state ≠ .cancelling := fun hc => by
          rw [voided o horder hc] at void
          cases void
        obtain ⟨x, hx⟩ : ∃ x, o.afterFlight (done.countP (s.counts i o.number false))
            (done.countP (s.counts i o.number true)) = some x := by
          rw [Order.afterFlight, if_neg notDamaged, if_neg active]
          exact ⟨_, rfl⟩
        obtain ⟨hnumber, hstate, hclass⟩ := afterFlight_same hx
        have ht : t.order? i = some x := by rw [horders.orders i, hs, Option.bind_some, hx]
        have htsound : t.soundOrder u = some x :=
          soundOrder_some.mpr ⟨i, slot, ht, by rw [number, hnumber], by rw [hstate]; exact notDamaged⟩
        obtain ⟨m, hm⟩ := lowest_free hpool.free
        have hmake : t.makeUnit (u.reprint u.lineage) = (some m, t.setUnit m (u.reprint u.lineage)) := by
          simp only [State.makeUnit, hm]
        have hv : s.reprintOf id = some (u.reprint u.lineage) := by
          rw [State.reprintOf, hu, Option.map_some, reprint_fresh void fresh]
        have hstep := resetSpoil_reprinted (rush := rush) (standard := standard) clean hut strip void fresh slot htsound
        rw [hmake] at hstep
        rw [hstep] at cleanStep ⊢
        refine ⟨?_, horders.spoil hu strip void fresh slot hs number notDamaged active ht rfl rfl, cleanStep⟩
        refine hpool.reprint new hu (fun cls => ?_) hm hv
        have hprint : (u.kind != .strip) = true := bne_iff_ne.mpr strip
        have hsound : (o.state != .damaged) = true := bne_iff_ne.mpr notDamaged
        rw [hreprinted, horder, hclass, void, fresh, hprint, Option.any_some, hsound]
        cases o.queueClass <;> cases cls <;> rfl
      · have noOrder : t.soundOrder u = none := by
          rw [Option.eq_none_iff_forall_ne_some]
          intro x hx
          obtain ⟨i, slot, ht, number, notDamaged⟩ := soundOrder_some.mp hx
          rw [horders.orders i, Option.bind_eq_some_iff] at ht
          obtain ⟨o, hs, hafter⟩ := ht
          obtain ⟨hnumber, hstate, -⟩ := afterFlight_same hafter
          exact sound ⟨o, unitOrder_some.mpr ⟨i, slot, hs, by rw [number, hnumber]⟩, by rw [← hstate]; exact notDamaged⟩
        have hstep := resetSpoil_gone (rush := rush) (standard := standard) clean hut strip void (.inr noOrder)
        rw [hstep] at cleanStep ⊢
        refine ⟨hpool.release new hu fun cls => ?_,
          horders.same (fun i o b hs notDamaged => ?_) (fun _ => rfl) fun _ => rfl, cleanStep⟩
        · rw [hreprinted]
          cases horder : s.unitOrder u with
          | none => simp
          | some o =>
            have damaged : o.state = .damaged := by
              by_contra notDamaged
              exact sound ⟨o, horder, notDamaged⟩
            simp [damaged]
        · have hmiss : u.isOf i o.number = false := by
            rw [← Bool.not_eq_true, PrintUnit.isOf, Bool.and_eq_true, beq_iff_eq, beq_iff_eq]
            exact fun ⟨slot, number⟩ => sound ⟨o, unitOrder_some.mpr ⟨i, slot, hs, number⟩, notDamaged⟩
          simp [counts_eq hu, hmiss]

/-- Every unit in flight leaves the path (R40). -/
theorem FlightSpec.all {s : State} {ids done : List Nat} {acc : (List Nat × List Nat) × State} (h : FlightSpec s done acc)
    (distinct : (done ++ ids).Nodup) (live : ∀ id ∈ ids, (s.unit? id).isSome = true)
    (voided : ∀ id ∈ ids, ∀ u o, s.unit? id = some u → s.unitOrder u = some o → o.state = .cancelling → u.void = true) :
    FlightSpec s (done ++ ids) (ids.foldl (fun acc id => resetSpoil id acc) acc) := by
  induction ids generalizing done acc with
  | nil => simpa using h
  | cons id ids ih =>
    obtain ⟨u, hu⟩ := Option.isSome_iff_exists.mp (live id List.mem_cons_self)
    have new : id ∉ done := fun hd => by
      rw [List.nodup_append] at distinct
      exact distinct.2.2 id hd id List.mem_cons_self rfl
    have hstep := h.step new hu fun o => voided id List.mem_cons_self u o hu
    rw [List.foldl_cons, show done ++ id :: ids = done ++ [id] ++ ids by simp]
    exact ih hstep (by simpa using distinct) (fun k hk => live k (List.mem_cons_of_mem _ hk))
      fun k hk => voided k (List.mem_cons_of_mem _ hk)

theorem FlightSpec.start {s : State} (clean : CleanStorage s) (free : ∃ free < s.queue.pool.length, s.unit? free = none) :
    FlightSpec s [] (([], []), s) where
  pool := ⟨fun cls => by cases cls <;> rfl, List.nodup_nil, nofun, fun id _ => by rw [if_neg List.not_mem_nil]; rfl, free⟩
  orders := by
    refine ⟨fun i => ?_, fun i => ?_⟩
    · cases s.order? i with
      | none => rfl
      | some o => 
        have hsame : o.afterFlight 0 0 = some o := by
          unfold Order.afterFlight
          split
          · rfl
          · split <;> rfl
        exact hsame.symm
    · cases s.order? i <;> simp
  clean := clean

end Sys2Proof.Machine
end

section
/-! What the stop of the path leaves of the units in flight (R22, R31, R40, R155; for O59). -/

namespace Sys2Proof.Machine

theorem freeRecords_length (pool : List (Option PrintUnit)) (ids : List Nat) : (freeRecords pool ids).length = pool.length := by
  induction ids generalizing pool with
  | nil => rfl
  | cons id ids ih => exact (ih _).trans List.length_set

section
variable {s : State}

theorem stripGone_eq : s.stripGone = { s with queue := { s.leaveQueue s.queue.strip |>.queue with
    pool := freeRecords s.queue.pool s.queue.strip, signal := s.queue.signal || decide (s.queue.strip ≠ []) } } := by
  unfold State.stripGone
  rw [releaseUnits_eq]
  rfl

theorem stripGone_unit? (id : Nat) : s.stripGone.unit? id = if id ∈ s.queue.strip then none else s.unit? id := by
  rw [stripGone_eq]
  exact recordOf_freeRecords ..

theorem stripGone_orders : s.stripGone.orders = s.orders := by
  rw [stripGone_eq]

theorem stripGone_order? (i : Nat) : s.stripGone.order? i = s.order? i := by
  rw [State.order?, stripGone_orders]
  rfl

theorem stripGone_unitOrder (u : PrintUnit) : s.stripGone.unitOrder u = s.unitOrder u := by
  rw [stripGone_eq]
  rfl

theorem stripGone_figures? (i : Nat) : s.stripGone.figures? i = s.figures? i := by
  rw [stripGone_eq]
  rfl

/-- A unit that is not in the strip section reads the same with the strip gone. -/
theorem stripGone_outside {id : Nat} (h : id ∉ s.queue.ids) :
    s.stripGone.unit? id = s.unit? id ∧ (∀ cls, s.stripGone.reprinted cls id = s.reprinted cls id)
      ∧ s.stripGone.reprintOf id = s.reprintOf id
      ∧ ∀ i n void, s.stripGone.counts i n void id = s.counts i n void id := by
  have hunit : s.stripGone.unit? id = s.unit? id := by
    rw [stripGone_unit?, if_neg fun hs => h (List.mem_append_left _ (List.mem_append_left _ hs))]
  refine ⟨hunit, fun cls => ?_, ?_, fun i n void => ?_⟩
  · simp only [State.reprinted, hunit, stripGone_unitOrder]
  · rw [State.reprintOf, State.reprintOf, hunit]
  · rw [State.counts, State.counts, hunit]

variable (clean : CleanStorage s) (distinct : (s.inFlight ++ s.cal.strip.readUnit.toList).Nodup)
  (apart : ∀ id ∈ s.inFlight ++ s.cal.strip.readUnit.toList, id ∉ s.queue.ids ∧ (s.unit? id).isSome = true)
  (free : ∃ free < s.queue.pool.length, s.unit? free = none)
  (voided : ∀ id ∈ s.inFlight, ∀ u o, s.unit? id = some u → s.unitOrder u = some o → o.state = .cancelling → u.void = true)
include clean distinct apart free voided

theorem reprints_spec : FlightSpec s.stripGone s.inFlight s.reprints := by
  have cleanStrip : CleanStorage s.stripGone := by
    rw [stripGone_eq]
    exact clean
  have hfree : ∃ free < s.stripGone.queue.pool.length, s.stripGone.unit? free = none := by
    obtain ⟨k, hlt, hnone⟩ := free
    refine ⟨k, ?_, by rw [stripGone_unit?, hnone, ite_self]⟩
    rw [stripGone_eq]
    exact lt_of_lt_of_eq hlt (freeRecords_length ..).symm
  have hunit {id : Nat} (h : id ∈ s.inFlight) := (stripGone_outside (apart id (List.mem_append_left _ h)).1).1
  refine (FlightSpec.start cleanStrip hfree).all (List.nodup_append.mp distinct).1 (fun id h => ?_)
    fun id h u o hu ho => voided id h u o ((hunit h).symm.trans hu) ((stripGone_unitOrder u).symm.trans ho)
  rw [hunit h]
  exact (apart id (List.mem_append_left _ h)).2

/-- The stop of the path, unit by unit and order by order (R22, R31, R40). -/
theorem stopPath_flight :
    let t := stopPath s
    let rush := s.reprints.1.1
    let standard := s.reprints.1.2
    let replaces := fun (cls : OrderClass) (made : List Nat) =>
      made.map t.unit? = (s.inFlight.filter (s.reprinted cls)).map s.reprintOf
    (rush ++ standard).Nodup ∧ replaces .rush rush ∧ replaces .standard standard
    ∧ (∀ id ∈ rush ++ standard, s.unit? id = none ∨ id ∈ s.inFlight ∨ id ∈ s.queue.strip)
    ∧ (∀ id, id ∉ rush ++ standard → t.unit? id =
        if id ∈ s.inFlight ∨ id ∈ s.queue.strip ∨ s.cal.strip.readUnit = some id then none else s.unit? id)
    ∧ (∀ i, t.order? i = (s.order? i).bind fun o =>
        o.afterFlight (s.inFlight.countP (s.counts i o.number false)) (s.inFlight.countP (s.counts i o.number true)))
    ∧ (∀ i, t.figures? i = if (s.order? i).isSome = true ∧ t.order? i = none then none else s.figures? i) := by
  have hall := reprints_spec clean distinct apart free voided
  intro t rush standard replaces
  have ht : t = _ := stopPath_spec clean
  have hunit (id : Nat) : t.unit? id = recordOf (s.poolAfterRead s.reprints.2.queue.pool) id := by
    rw [ht]
    rfl
  have horder (i : Nat) : t.order? i = s.reprints.2.order? i := by
    rw [ht]
    rfl
  have hfigures (i : Nat) : t.figures? i = s.reprints.2.figures? i := by
    rw [ht]
    rfl
  have hread (id : Nat) : recordOf (s.poolAfterRead s.reprints.2.queue.pool) id =
      if s.cal.strip.readUnit = some id then none else recordOf s.reprints.2.queue.pool id := by
    unfold State.poolAfterRead
    cases hr : s.cal.strip.readUnit with
    | none => rfl
    | some k =>
      rw [recordOf_set_none]
      exact if_congr (by rw [Option.some.injEq]; exact eq_comm) rfl rfl
  have hinside {id : Nat} (h : id ∈ s.inFlight) := stripGone_outside (apart id (List.mem_append_left _ h)).1
  have hnotRead : ∀ id ∈ rush ++ standard, s.cal.strip.readUnit ≠ some id := by
    intro id hid hr
    have hmem : id ∈ s.cal.strip.readUnit.toList := by simp [hr]
    obtain ⟨hout, hlive⟩ := apart id (List.mem_append_right _ hmem)
    rcases hall.pool.origin id hid with hnone | hflight
    · rw [(stripGone_outside hout).1] at hnone
      rw [hnone] at hlive
      cases hlive
    · exact (List.nodup_append.mp distinct).2.2 id hflight id hmem rfl
  have hreplaces (cls : OrderClass) (hin : ∀ id ∈ madeFor s.reprints.1 cls, id ∈ rush ++ standard) :
      replaces cls (madeFor s.reprints.1 cls) := by
    have hmade : (madeFor s.reprints.1 cls).map t.unit? = (madeFor s.reprints.1 cls).map (recordOf s.reprints.2.queue.pool) :=
      List.map_congr_left fun id hid => by rw [hunit, hread, if_neg (hnotRead id (hin id hid))]
    have hfilter : s.inFlight.filter (s.stripGone.reprinted cls) = s.inFlight.filter (s.reprinted cls) :=
      List.filter_congr fun id h => (hinside h).2.1 cls
    exact (hmade.trans (hall.pool.replaced cls)).trans (hfilter ▸ List.map_congr_left fun id h =>
      (hinside (List.mem_of_mem_filter h)).2.2.1)
  refine ⟨hall.pool.nodup, hreplaces .rush fun id => List.mem_append_left _, hreplaces .standard fun id => List.mem_append_right _,
    fun id hid => ?_, fun id hid => ?_, fun i => ?_, fun i => ?_⟩
  · rcases hall.pool.origin id hid with hnone | hflight
    · rw [stripGone_unit?] at hnone
      split at hnone
      · next hs => exact .inr (.inr hs)
      · exact .inl hnone
    · exact .inr (.inl hflight)
  · rw [hunit, hread, hall.pool.others id hid, stripGone_unit?]
    by_cases hr : s.cal.strip.readUnit = some id <;> by_cases hf : id ∈ s.inFlight <;>
      by_cases hs : id ∈ s.queue.strip <;> simp [hr, hf, hs]
  · rw [horder, hall.orders.orders i, stripGone_order?]
    have hcount (n : Nat) (void : Bool) : s.inFlight.countP (s.stripGone.counts i n void) = s.inFlight.countP (s.counts i n void) :=
      List.countP_congr fun id h => by rw [(hinside h).2.2.2 i n void]
    simp only [hcount]
  · rw [hfigures, hall.orders.figures i, stripGone_order?, stripGone_figures?, horder]

end

/-! ### One unit in flight (R40) -/

/-- A print of a sound order is replaced by a reprint at its section's head (R33, R40). -/
theorem resetSpoilAll_one {s : State} {id made i : Nat} {u : PrintUnit} {o : Order} (clean : CleanStorage s)
    (hu : s.unit? id = some u) (print : u.kind ≠ .strip) (valid : u.void = false) (fresh : u.spoiled = false)
    (slot : u.slot = some i) (ho : s.order? i = some o) (number : u.number = some o.number) (sound : o.state ≠ .damaged)
    (hm : s.queue.pool.findIdx? Option.isNone = some made) :
    resetSpoilAll [id] s = { s with
      queue := { s.queue with
        pool := (s.queue.pool.set made (some { u with kind := .reprint, place := .queue, exposure := none })).set id none
        signal := true
        rush := if o.queueClass = .rush then made :: s.queue.rush else s.queue.rush
        standard := if o.queueClass = .standard then made :: s.queue.standard else s.queue.standard }
      orders := { s.orders with
        slots := s.orders.slots.set i (some { o with spoils := min (o.spoils + 1) 65535 }) } } := by
  have hmake : s.makeUnit (u.reprint u.lineage) = (some made, s.setUnit made (u.reprint u.lineage)) := by
    simp only [State.makeUnit, hm]
  have hstep := resetSpoil_reprinted (rush := []) (standard := []) clean hu print valid fresh slot
    (soundOrder_some.mpr ⟨i, slot, ho, number, sound⟩)
  rw [hmake, reprint_fresh valid fresh] at hstep
  unfold resetSpoilAll
  rw [List.foldl_cons, List.foldl_nil, hstep]
  cases o.queueClass <;> rfl

/-! ### The end of a start or reset (R13, R130) -/

/-- A held trial that has been made is not made again. -/
theorem runTrials_idem (s : State) : runTrials (runTrials s) = runTrials s := by
  cases runs : s.cycleRuns with
  | false => exact runTrials_none (runTrials_trialDue runs)
  | true =>
    have hwaits : runTrials s = s := if_neg (by simp [runs])
    rw [hwaits, hwaits]

/-- An engine that is not IDLE answers no signal, so a start or reset ends with the pricing pass and the trial. -/
theorem endStart_eq {s : State} (busy : s.engine.state ≠ .idle) :
    endStart s = { runTrials (pricingPass s).oweTrial with
      queue := { (runTrials (pricingPass s).oweTrial).queue with signal := false } } := by
  have hengine : (runTrials (pricingPass s).oweTrial).engine = s.engine :=
    (Leaves.refl s).after_pricingPass.after_oweTrial.after_runTrials.engine
  have hanswer : answerSignal (runTrials (pricingPass s).oweTrial) = runTrials (pricingPass s).oweTrial := by
    simp [answerSignal, hengine, busy]
  unfold endStart
  rw [settle_eq, State.settled, hanswer, runTrials_idem]

end Sys2Proof.Machine
end

section
/-! What the end of a start or reset reads and writes on clean storage (R13, R130; for O59). -/

namespace Sys2Proof.Machine

/-! ### The pricing pass (R130, R131) -/

/-- The slots with slot `i` priced (R131). -/
def pricedSlot (price : Sheet) (slots : List (Option Order)) (i : Nat) : List (Option Order) :=
  if price.bad then slots
  else
    match slots.getD i none with
    | some o => if o.state = .complete then slots.set i (some { o with state := .ready, price := some (priceOf price o) }) else slots
    | none => slots

theorem priceSlot_clean {s : State} (clean : CleanStorage s) (i : Nat) :
    priceSlot i s = s.withSlots (pricedSlot s.store.price s.orders.slots i) := by
  unfold priceSlot pricedSlot
  split
  · rfl
  · rw [show s.orders.slots.getD i none = s.order? i from rfl]
    cases ho : s.order? i with
    | none => rfl
    | some o =>
      simp only [readSlot_clean clean, ho]
      split <;> rfl

/-- On clean storage a pricing pass changes the slots alone (R130). -/
theorem pricingPass_clean {s : State} (clean : CleanStorage s) :
    pricingPass s = s.withSlots (slotIndexes.foldl (pricedSlot s.store.price) s.orders.slots) := by
  have passed : ∀ (l : List Nat) (slots : List (Option Order)),
      l.foldl (fun s i => priceSlot i s) (s.withSlots slots) = s.withSlots (l.foldl (pricedSlot s.store.price) slots) := by
    intro l
    induction l with
    | nil => exact fun _ => rfl
    | cons i l ih =>
      intro slots
      rw [List.foldl_cons, priceSlot_clean (s := s.withSlots slots) clean]
      exact ih _
  exact passed slotIndexes s.orders.slots

/-! ### What held trials do not read (R13, R37)

As with `State.over`: a trial reads and writes the fields of the state, those of `State.dressed` excepted. -/

/-- The state with the notices, the storage, the Sorter, the calibration, the number counter and the run count of
another. -/
def State.dressed (s r : State) : State :=
  { s with
    notices := r.notices, memory := r.memory, sorter := r.sorter, cal := r.cal
    orders := { s.orders with nextNumber := r.orders.nextNumber }
    queue := { s.queue with runCount := r.queue.runCount } }

section
variable (s : State) {r : State}

theorem dressed_self : s.dressed s = s := rfl

theorem dressed_ite (c : Prop) [Decidable c] (s t r : State) :
    (if c then s else t).dressed r = if c then s.dressed r else t.dressed r := apply_ite (State.dressed · r) c s t

theorem admitOrder_dressed (i : Nat) (o : Order) : admitOrder i o (s.dressed r) = (admitOrder i o s).dressed r := by
  rw [admitOrder_eq, admitOrder_eq]
  rfl

theorem leaveHeldList_dressed (i : Nat) : (s.dressed r).leaveHeldList i = (s.leaveHeldList i).dressed r := by
  unfold State.leaveHeldList
  simp only [dressed_ite]
  rfl

theorem heldTrials_dressed (cleanS : CleanStorage s) (clean : CleanStorage r) (n : Nat) :
    heldTrials n (s.dressed r) = (heldTrials n s).dressed r ∧ (heldTrials n s).queue.strip = s.queue.strip := by
  induction n generalizing s with
  | zero => exact ⟨rfl, rfl⟩
  | succ n ih =>
    cases hl : s.orders.heldList with
    | nil =>
      rw [heldTrials_nil hl, heldTrials_nil (s := s.dressed r) hl]
      exact ⟨rfl, rfl⟩
    | cons i rest =>
      cases ho : s.order? i with
      | none =>
        have hgone {t : State} (cleanT : CleanStorage t) (hlist : t.orders.heldList = i :: rest) (hnone : t.order? i = none) :
            heldTrials (n + 1) t = heldTrials n (t.leaveHeldList i) := by
          simp only [heldTrials, hlist, readSlot_clean cleanT, hnone]
        rw [hgone cleanS hl ho, hgone (t := s.dressed r) clean hl ho, leaveHeldList_dressed]
        obtain ⟨hdress, hstrip⟩ := ih (s.leaveHeldList i) ((CycleKeeps.leaveHeldList i).clean cleanS)
        refine ⟨hdress, hstrip.trans ?_⟩
        unfold State.leaveHeldList
        split <;> rfl
      | some o =>
        cases hc : trialCause s o with
        | some cause =>
          rw [heldTrials_fails cleanS hl ho hc, heldTrials_fails (s := s.dressed r) clean hl ho hc]
          exact ⟨rfl, rfl⟩
        | none =>
          have hadmit := admitOrder_dressed (s.headLeaves rest) (r := r) i o
          rw [heldTrials_admits cleanS hl ho hc, heldTrials_admits (s := s.dressed r) clean hl ho hc,
            show (s.dressed r).headLeaves rest = (s.headLeaves rest).dressed r from rfl, hadmit]
          obtain ⟨hdress, hstrip⟩ := ih (admitOrder i o (s.headLeaves rest)) ((CycleKeeps.admitOrder i o).clean cleanS)
          refine ⟨hdress, hstrip.trans ?_⟩
          rw [admitOrder_eq]
          rfl

theorem runTrials_dressed (cleanS : CleanStorage s) (clean : CleanStorage r) :
    runTrials (s.dressed r) = (runTrials s).dressed r ∧ (runTrials s).queue.strip = s.queue.strip := by
  obtain ⟨hdress, hstrip⟩ := heldTrials_dressed s cleanS clean (s.orders.heldList.length + 1)
  unfold runTrials
  refine ⟨?_, ?_⟩
  · rw [dressed_ite]
    refine if_congr Iff.rfl ?_ rfl
    rw [show (s.dressed r).orders.heldList.length = s.orders.heldList.length from rfl, hdress]
    rfl
  · split
    · exact hstrip
    · rfl

/-- The end of a start or reset leaves the fields of `State.dressed` as they are, and depends on none of them. -/
theorem endStart_dressed (cleanS : CleanStorage s) (clean : CleanStorage r) (busy : s.engine.state ≠ .idle) :
    endStart (s.dressed r) = (endStart s).dressed r := by
  have hpriced : pricingPass (s.dressed r) = (pricingPass s).dressed r := by
    rw [pricingPass_clean cleanS, pricingPass_clean (s := s.dressed r) clean]
    rfl
  have cleanPriced : CleanStorage (pricingPass s).oweTrial :=
    CycleKeeps.oweTrial.clean (CycleFrame.pricingPass.clean cleanS)
  rw [endStart_eq busy, endStart_eq (s := s.dressed r) busy, hpriced]
  generalize pricingPass s = t at cleanPriced
  rw [show (t.dressed r).oweTrial = t.oweTrial.dressed r from rfl, (runTrials_dressed _ cleanPriced clean).1]
  rfl

/-- An owed trial is made at the end of a start or reset anyway. -/
theorem endStart_owed (cleanS : CleanStorage s) (due : Bool) :
    endStart { s with orders := { s.orders with trialDue := due } } = endStart s := by
  unfold endStart
  rw [pricingPass_clean cleanS, pricingPass_clean (s := { s with orders := { s.orders with trialDue := due } }) cleanS]
  rfl

theorem endStart_strip (cleanS : CleanStorage s) (busy : s.engine.state ≠ .idle) :
    (endStart s).queue.strip = s.queue.strip := by
  have cleanPriced : CleanStorage (pricingPass s).oweTrial :=
    CycleKeeps.oweTrial.clean (CycleFrame.pricingPass.clean cleanS)
  have hpriced : (pricingPass s).oweTrial.queue.strip = s.queue.strip := by
    rw [pricingPass_clean cleanS]
    rfl
  rw [endStart_eq busy]
  generalize (pricingPass s).oweTrial = t at cleanPriced hpriced
  exact (runTrials_dressed t cleanPriced cleanPriced).2.trans hpriced

end

end Sys2Proof.Machine
end

section
/-! The starts and resets of the part (R94 to R96, R128, R155, R185; O59). -/

namespace Sys2Proof.Machine

/-! ### The end of a start or reset, field by field (R13, R130) -/

/-- What the end of a start or reset leaves alone: everything but the orders, the queue and the counts of outputs. -/
structure EndFrame (s t : State) : Prop where
  engine     : t.engine = s.engine
  transit    : t.transit = s.transit
  power      : t.power = s.power
  clock      : t.clock = s.clock
  link       : t.link = s.link
  store      : t.store = s.store
  notices    : t.notices = s.notices
  memory     : t.memory = s.memory
  sorter     : t.sorter = s.sorter
  cal        : t.cal = s.cal
  nextNumber : t.orders.nextNumber = s.orders.nextNumber
  runCount   : t.queue.runCount = s.queue.runCount
  strip      : t.queue.strip = s.queue.strip

theorem endStart_frame {s : State} (clean : CleanStorage s) (busy : s.engine.state ≠ .idle) : EndFrame s (endStart s) := by
  have hdressed : endStart s = (endStart s).dressed s := endStart_dressed s clean clean busy
  have hstrip := endStart_strip s clean busy
  have hend : Leaves s (endStart s) := by
    have hleaves : Leaves s (runTrials (pricingPass s).oweTrial) :=
      (Leaves.refl s).after_pricingPass.after_oweTrial.after_runTrials
    rw [endStart_eq busy]
    generalize runTrials (pricingPass s).oweTrial = t at hleaves
    exact hleaves.of_quiet rfl rfl rfl rfl rfl rfl rfl rfl rfl rfl
  generalize endStart s = t at hdressed hstrip hend
  exact {
    engine := hend.engine, transit := hend.transit, power := hend.power, clock := hend.clock, link := hend.link
    store := hend.store, notices := (congrArg State.notices hdressed).trans rfl, memory := (congrArg State.memory hdressed).trans rfl
    sorter := (congrArg State.sorter hdressed).trans rfl
    cal := (congrArg State.cal hdressed).trans rfl
    nextNumber := congrArg (fun t : State => t.orders.nextNumber) hdressed |>.trans rfl
    runCount := congrArg (fun t : State => t.queue.runCount) hdressed |>.trans rfl
    strip := hstrip }

/-! ### What a start senses and keeps (R80, R94, R155) -/

/-- A magazine's record as sensed, with a remaining length. -/
def sensedRecord (m : SensedMagazine) (remaining : Nat) : MagazineRecord :=
  { present := m.present, paperEnd := m.present && m.paperEnd, remaining
    surface := if m.present = true then some (m.surfaceCode % 4) else none
    width := if m.present = true then [none, some 89, some 102, some 127, some 152, some 203, some 254,
      some 305].getD (m.widthCode % 8) none else none }

theorem senseMagazine_eq (m : SensedMagazine) (remaining : Nat) :
    senseMagazine m remaining = sensedRecord m (if m.present = true then remaining else 0) := by
  unfold senseMagazine sensedRecord
  rw [widthOfCode_eq]
  cases m.present <;> rfl

theorem senseKeeping_eq (m : SensedMagazine) (r : MagazineRecord) : senseKeeping m r = sensedRecord m r.remaining := by
  rw [senseKeeping, senseMagazine_eq]
  rfl

/-- Abandoning the calibration leaves every surface's counter and due flag (R155). -/
theorem abandoned_kept (s : State) (u : Nat) :
    let surface := s.abandoned.getD u { counter := 0, due := false, last := none, checkWaiting := false }
    surface.counter = (s.surface u).counter ∧ surface.due = (s.surface u).due := by
  unfold State.abandoned
  cases s.cal.strip.surface with
  | none => exact ⟨rfl, rfl⟩
  | some k =>
    simp only [List.getD_eq_getElem?_getD, List.getElem?_set, State.surface]
    split
    · next h =>
      subst h
      split
      · exact ⟨rfl, rfl⟩
      · next out => simp [List.getElem?_eq_none (not_lt.mp out)]
    · exact ⟨rfl, rfl⟩

/-- A start that asks for no due comparison leaves every surface's counter and due flag. -/
theorem unwaiting_kept (s : State) (u : Nat) :
    let surface := (s.cal.surfaces.map fun r => { r with checkWaiting := false }).getD u
      { counter := 0, due := false, last := none, checkWaiting := false }
    surface.counter = (s.surface u).counter ∧ surface.due = (s.surface u).due := by
  simp only [List.getD_eq_getElem?_getD, List.getElem?_map, State.surface]
  cases s.cal.surfaces[u]? <;> exact ⟨rfl, rfl⟩

/-! ### The stop of the path beside the Sorter (R54) -/

theorem stopPath_sorter {s : State} (clean : CleanStorage s) (sorter : Sorter) :
    stopPath { s with sorter } = { stopPath s with sorter } := by
  have hself : stopPath s = { (stopPath s).over s with queue := (stopPath s).queue } := stopPath_over s clean clean
  have hother : stopPath { s with sorter } = { (stopPath s).over { s with sorter } with queue := (stopPath s).queue } :=
    stopPath_over s clean (r := { s with sorter }) clean
  rw [hother]
  generalize stopPath s = t at hself
  rw [hself]
  rfl

end Sys2Proof.Machine
end

section
/-! RETAINED_START and WARM_RESET_EFFECT on clean storage (R94 to R96, R128, R155, R184, R185; O59). -/

namespace Sys2Proof.Machine

/-! ### The stop of the path, field by field (R54) -/

/-- What the stop of the path clears and leaves, the orders and the units excepted. -/
structure StopFrame (s t : State) : Prop where
  engine     : t.engine = { s.engine with current := none }
  transit    : t.transit = { s.transit with train := [], consecutiveBlind := 0, waitingMarks := [] }
  power      : t.power = s.power
  clock      : t.clock = s.clock
  link       : t.link = s.link
  store      : t.store = s.store
  notices    : t.notices = s.notices
  memory     : t.memory = s.memory
  sorter     : t.sorter = s.sorter
  cal        : t.cal = { strip := .none, filter := .noReading, surfaces := s.abandoned }
  nextNumber : t.orders.nextNumber = s.orders.nextNumber
  runCount   : t.queue.runCount = 0
  strip      : t.queue.strip = []

theorem stopPath_frame {s : State} (clean : CleanStorage s) : StopFrame s (stopPath s) := by
  rw [stopPath_spec clean]
  exact ⟨rfl, rfl, rfl, rfl, rfl, rfl, rfl, rfl, rfl, rfl, rfl, rfl, rfl⟩

/-! ### Both kinds of start (R94) -/

/-- The end of a start whose path is stopped, the Sorter, the engine and the train at their start values. -/
theorem endStart_stopped {s : State} (clean : CleanStorage s) (transit : Transit) {engine : Engine}
    (busy : engine.state ≠ .idle) :
    let t := endStart { stopPath s with engine, transit }
    t = endStart { stopPath s with engine := t.engine, transit := t.transit }
      ∧ t.engine = engine ∧ t.transit = transit ∧ t.power = s.power ∧ t.clock = s.clock ∧ t.link = s.link
      ∧ t.notices = s.notices ∧ t.store = s.store ∧ t.sorter = s.sorter ∧ t.orders.nextNumber = s.orders.nextNumber
      ∧ t.queue.strip = [] ∧ t.queue.runCount = 0 ∧ t.cal.strip = .none ∧ t.cal.filter = .noReading
      ∧ ∀ u, (t.surface u).counter = (s.surface u).counter ∧ (t.surface u).due = (s.surface u).due := by
  have hstop := stopPath_frame clean
  generalize stopPath s = p at hstop
  have cleanP : CleanStorage { p with engine, transit } := by
    show p.memory.upsets = []
    rw [hstop.memory]
    exact clean
  have hend := endStart_frame cleanP busy
  intro t
  change EndFrame _ t at hend
  have hcal := hend.cal.trans hstop.cal
  refine ⟨?_, hend.engine, hend.transit, hend.power.trans hstop.power, hend.clock.trans hstop.clock,
    hend.link.trans hstop.link, hend.notices.trans hstop.notices, hend.store.trans hstop.store,
    hend.sorter.trans hstop.sorter, hend.nextNumber.trans hstop.nextNumber, hend.strip.trans hstop.strip,
    hend.runCount.trans hstop.runCount, congrArg CalibrationUnit.strip hcal, congrArg CalibrationUnit.filter hcal,
    fun u => ?_⟩
  · rw [hend.engine, hend.transit]
  · rw [State.surface, hcal]
    exact abandoned_kept s u

/-! ### WARM_RESET_EFFECT (R166) -/

/-- The state that a warm reset stops, its Sorter at its start values (R166, R173, R185). -/
def State.warmValues (s : State) : State :=
  { s with link := s.link.warm, notices := s.notices.warm, sorter := { s.sorter with gate := .reject } }

/-- The engine after a warm reset (R94). -/
def State.warmEngine (a b : SensedMagazine) (s : State) : Engine :=
  engineAtStart (sensedRecord a s.engine.magA.remaining) (sensedRecord b s.engine.magB.remaining)
    s.engine.lampIsLow s.store.holdsEngine s.engine

theorem warmReset_eq {s : State} (clean : CleanStorage s) (a b : SensedMagazine) : warmReset a b s =
    endStart { stopPath s.warmValues with engine := s.warmEngine a b, transit := (stopPath s.warmValues).transit } := by
  have hsorter := stopPath_sorter (s := { s with link := s.link.warm, notices := s.notices.warm }) clean
    { s.sorter with gate := .reject }
  have hstop := stopPath_frame (s := { s with link := s.link.warm, notices := s.notices.warm }) clean
  rw [State.warmValues, hsorter]
  unfold warmReset
  generalize stopPath { s with link := s.link.warm, notices := s.notices.warm } = p at hstop
  refine congrArg endStart ?_
  dsimp only
  rw [senseKeeping_eq, senseKeeping_eq, hstop.engine, hstop.store, hstop.sorter]
  rfl

/-! ### RETAINED_START (R185) -/

/-- What a retained start does after its walk. -/
def retainedRest (x : Sensed) (w : State) : State :=
  let stopped := stopPath { w with orders := { w.orders with slots := w.orders.slots.map (Option.map zeroIdle) } }
  endStart { stopped with
    transit := { stopped.transit with path := 0, strayMarks := 0, blindCuts := 0 }
    sorter := { stopped.sorter with bins := senseDoors x.doorsOpen stopped.sorter.bins, gate := .reject }
    engine := { engineAtStart (senseMagazine x.magA stopped.engine.magA.remaining)
        (senseMagazine x.magB stopped.engine.magB.remaining) x.lampLow stopped.store.holdsEngine
        stopped.engine with discardedLines := 0 } }

/-- The state that a retained start walks, without the wrong bits that the storage gained. -/
def State.checkedAtStart (s : State) : State := readCopies (storeCheck (retainedClear [] s))

/-- The state with other wrong bits in its storage. -/
def State.withUpsets (s : State) (upsets : List Upset) : State := { s with memory := { s.memory with upsets } }

theorem withUpsets_clean (s : State) : CleanStorage (s.withUpsets []) := by
  unfold CleanStorage State.withUpsets
  rfl

theorem retainedStart_eq {s : State} (clean : CleanStorage s) (whole : s.store.cycle = none) (x : Sensed)
    (upsets : List Upset) : retainedStart x upsets s =
      retainedRest x (walkSlots (s.checkedAtStart.withUpsets upsets)) := by
  have hupsets : s.memory.upsets ++ upsets = upsets := by rw [show s.memory.upsets = [] from clean, List.nil_append]
  have hwalk : readCopies (storeCheck (retainedClear upsets s)) =
      s.checkedAtStart.withUpsets upsets := by
    rw [State.checkedAtStart, storeCheck_eq, storeCheck_eq, foldl_raise_notices, foldl_raise_notices]
    unfold retainedClear
    rw [hupsets]
    rfl
  unfold retainedStart
  rw [cutCycle_none whole, hwalk]
  rfl

/-- The walk of a retained start at one slot (R185). -/
def walkSlot (s : State) (i : Nat) : State := if (s.order? i).isSome then readSlot i s else readFreeSlot i s

/-- A slot that holds no wrong bit passes the walk by. -/
theorem walkSlot_untouched {s : State} {i : Nat} (h : s.upsetsOf i = []) : walkSlot s i = s := by
  have hword : s.memory.upsets.filter (fun u => u.slot == i && u.word == .state) = [] := by
    refine List.filter_eq_nil_iff.mpr fun u hu hb => ?_
    exact List.filter_eq_nil_iff.mp h u hu (Bool.and_eq_true_iff.mp hb).1
  have hfree : readFreeSlot i s = s := by
    unfold readFreeSlot
    split
    · rfl
    · simp only [hword]
      rfl
  rw [walkSlot, readSlot_untouched h, hfree, ite_self]

theorem walkSlots_clean {s : State} (clean : CleanStorage s) : walkSlots s = s := by
  have hstay : ∀ l : List Nat, l.foldl walkSlot s = s := by
    intro l
    induction l with
    | nil => rfl
    | cons i l ih =>
      rw [List.foldl_cons, walkSlot_untouched (congrArg (List.filter _) (show s.memory.upsets = [] from clean)), ih]
  exact hstay slotIndexes

/-- The state after a start's walk as the path is stopped, its Sorter at its start values (R31, R128). -/
def State.toStop (x : Sensed) (w : State) : State :=
  { w with
    orders := { w.orders with slots := w.orders.slots.map (Option.map zeroIdle) }
    sorter := { w.sorter with bins := senseDoors x.doorsOpen w.sorter.bins, gate := .reject } }

/-- The engine at a retained start (R94). -/
def State.startEngine (x : Sensed) (w : State) : Engine :=
  { engineAtStart
      (sensedRecord x.magA (if x.magA.present = true then w.engine.magA.remaining else 0))
      (sensedRecord x.magB (if x.magB.present = true then w.engine.magB.remaining else 0))
      x.lampLow w.store.holdsEngine w.engine with discardedLines := 0 }

/-- The train at a retained start (R96). -/
def State.startTransit (w : State) : Transit :=
  { State.reset.transit with cutterCommands := w.transit.cutterCommands }

theorem retainedRest_eq {w : State} (clean : CleanStorage w) (x : Sensed) : retainedRest x w =
    endStart { stopPath (w.toStop x) with engine := w.startEngine x, transit := w.startTransit } := by
  have clean' : CleanStorage { w with orders := { w.orders with slots := w.orders.slots.map (Option.map zeroIdle) } } := clean
  have hsorter := stopPath_sorter clean' { w.sorter with bins := senseDoors x.doorsOpen w.sorter.bins, gate := .reject }
  have hstop := stopPath_frame clean'
  unfold retainedRest State.toStop
  refine congrArg endStart ?_
  rw [hsorter]
  generalize stopPath { w with orders := { w.orders with slots := w.orders.slots.map (Option.map zeroIdle) } } = p at hstop
  dsimp only
  rw [senseMagazine_eq, senseMagazine_eq, hstop.engine, hstop.store, hstop.sorter, hstop.transit]
  rfl

/-- The state that a retained start on clean storage stops, its Sorter at its start values (R128, R184, R185). -/
def State.startValues (x : Sensed) (s : State) : State :=
  { s with
    power := .on, link := State.reset.link, clock := State.reset.clock, store := s.store.afterCheck
    notices := ((sheetNames.filter s.store.fails).foldl (fun t name => t.raise .storeSheetBad name.code) State.reset).notices
    memory := { s.memory with threshold := if s.store.fails .general = true then 16 else s.store.general.value 9 }
    orders := { s.orders with draftCheckDue := false, slots := s.orders.slots.map (Option.map zeroIdle) }
    sorter := { s.sorter with
      gate := .reject
      capacity := if s.store.fails .general = true then 50 else s.store.general.value 4
      bins := senseDoors x.doorsOpen s.sorter.bins }
    cal := { s.cal with surfaces := s.cal.surfaces.map fun r => { r with checkWaiting := false } } }

/-- A retained start on clean storage stops the path and senses the part (R185). -/
theorem retainedStart_clean {s : State} (clean : CleanStorage s) (whole : s.store.cycle = none) (x : Sensed) :
    retainedStart x [] s = endStart { stopPath (s.startValues x) with
      engine := { s with store := s.store.afterCheck }.startEngine x, transit := s.startTransit } := by
  have hupsets : s.memory.upsets = [] := clean
  have hvalues : (s.checkedAtStart.withUpsets []).toStop x = s.startValues x := by
    rw [← hupsets, State.checkedAtStart, storeCheck_eq, foldl_raise_notices]
    unfold State.startValues
    rw [foldl_raise_notices]
    rfl
  rw [retainedStart_eq clean whole, walkSlots_clean (withUpsets_clean _),
    retainedRest_eq (withUpsets_clean _), hvalues, State.checkedAtStart, storeCheck_eq]
  rfl

end Sys2Proof.Machine
end

section
/-! A retained start whose walk finds a wrong slot (R178, R185), and O59. -/

namespace Sys2Proof.Machine

/-! ### What a retained start does not read after its walk -/

/-- The state with other notices and another storage, another held cause, and a trial owed or not. -/
def State.noted (s : State) (notices : NoticeUnit) (memory : RecordMemory) (cause : Option HeldCause) (due : Bool) : State :=
  { s with
    notices, memory, orders := { s.orders with trialDue := due }, queue := { s.queue with heldCause := cause } }

section
variable {s : State} (clean : CleanStorage s) (x : Sensed) (notices : NoticeUnit) {memory : RecordMemory}
  (cleanAfter : memory.upsets = []) (cause : Option HeldCause) (due : Bool)

include clean cleanAfter in
theorem stopPath_noted : stopPath (s.noted notices memory cause due) =
    { stopPath s with notices, memory, orders := { (stopPath s).orders with trialDue := due } } := by
  have hself : stopPath s = { (stopPath s).over s with queue := (stopPath s).queue } := stopPath_over s clean clean
  have hother : stopPath (s.noted notices memory cause due) =
      { (stopPath s).over (s.noted notices memory cause due) with queue := (stopPath s).queue } :=
    stopPath_over s clean (r := s.noted notices memory cause due) cleanAfter
  rw [hother]
  generalize stopPath s = t at hself
  rw [hself]
  rfl

include clean cleanAfter in
/-- Notices, clean storage and an owed trial pass the end of a start by. -/
theorem endStart_noted (busy : s.engine.state ≠ .idle) :
    endStart { s with notices, memory, orders := { s.orders with trialDue := due } } =
      { endStart s with notices, memory } := by
  have hself : endStart s = (endStart s).dressed s := endStart_dressed s clean clean busy
  have hother : endStart { s with notices, memory } = (endStart s).dressed { s with notices, memory } :=
    endStart_dressed s clean (r := { s with notices, memory }) cleanAfter busy
  rw [endStart_owed { s with notices, memory } cleanAfter due, hother]
  generalize endStart s = t at hself
  rw [hself]
  rfl

include clean in
theorem toStop_clean : CleanStorage (stopPath (s.toStop x)) :=
  (congrArg RecordMemory.upsets (stopPath_frame (s := s.toStop x) clean).memory).trans clean

include clean cleanAfter in
theorem retainedRest_noted :
    retainedRest x (s.noted notices memory cause due) = { retainedRest x s with notices, memory } := by
  have hstop := stopPath_noted (s := s.toStop x) clean notices cleanAfter cause due
  have hclean := toStop_clean clean x
  rw [retainedRest_eq (w := s.noted notices memory cause due) cleanAfter, retainedRest_eq clean,
    show (s.noted notices memory cause due).toStop x = (s.toStop x).noted notices memory cause due from rfl, hstop]
  generalize stopPath (s.toStop x) = p at hclean
  exact endStart_noted (s := { p with engine := s.startEngine x, transit := s.startTransit }) hclean notices cleanAfter due
    (fun h => by cases h)

include clean in
theorem retainedRest_keeps : (retainedRest x s).notices = s.notices ∧ (retainedRest x s).memory = s.memory := by
  have hstop := stopPath_frame (s := s.toStop x) clean
  have hclean := toStop_clean clean x
  rw [retainedRest_eq clean]
  generalize stopPath (s.toStop x) = p at hstop hclean
  have hend := endStart_frame (s := { p with engine := s.startEngine x, transit := s.startTransit }) hclean
    (fun h => by cases h)
  exact ⟨hend.notices.trans hstop.notices, hend.memory.trans hstop.memory⟩

end

/-! ### A walk that finds two wrong bits of one word (R178) -/

/-- A fold that does its work at one element. -/
theorem foldl_at {α β : Type} {f : β → α → β} {i : α} {l : List α} {b c : β} (hi : i ∈ l) (others : ∀ k, k ≠ i → f b k = b)
    (works : f b i = c) (done : ∀ k, f c k = c) : l.foldl f b = c := by
  have hdone : ∀ l : List α, l.foldl f c = c := by
    intro l
    induction l with
    | nil => rfl
    | cons k l ih => rw [List.foldl_cons, done, ih]
  induction l with
  | nil => cases hi
  | cons k l ih =>
    rw [List.foldl_cons]
    by_cases h : k = i
    · rw [h, works, hdone]
    · rw [others k h]
      exact ih ((List.mem_cons.mp hi).resolve_left (Ne.symm h))

/-- The state with slot `i` DAMAGED and off the held list, by no access. -/
def State.withDamaged (s : State) (i : Nat) (o : Order) : State :=
  { s with orders := { s.orders with slots := s.orders.slots.set i (some o), heldList := s.orders.heldList.erase i } }

theorem withDamaged_clean {s : State} (clean : CleanStorage s) (i : Nat) (o : Order) : CleanStorage (s.withDamaged i o) := clean

theorem damageSlot_noted (s : State) (i : Nat) (o : Order) (lost : Bool) : ∃ cause due, s.damageSlot i o lost =
    (s.withDamaged i { o with state := .damaged, number := if lost = true then 0 else o.number }).noted
      (s.notices.raise .recordDamaged i) s.memory cause due := by
  by_cases held : i ∈ s.orders.heldList
  · exact ⟨_, _, leaveHeldList_mem held⟩
  · refine ⟨s.queue.heldCause, s.orders.trialDue, ?_⟩
    unfold State.damageSlot State.withDamaged
    rw [List.erase_of_not_mem held]
    exact leaveHeldList_other (s := (s.setOrder i _).raise .recordDamaged i) held

section
variable {q : State} {i : Nat} {o : Order}

theorem walkSlots_twoBits {word : RecordWord} {lost : Bool} (hi : i < 64)
    (found : walkSlot (q.withUpsets [{ slot := i, word, bits := 2 }]) i = (q.withUpsets []).damageSlot i o lost) :
    walkSlots (q.withUpsets [{ slot := i, word, bits := 2 }]) = (q.withUpsets []).damageSlot i o lost := by
  refine foldl_at (f := walkSlot) (List.mem_range.mpr hi) (fun k hk => walkSlot_untouched ?_) found
    fun k => walkSlot_untouched ?_
  · exact List.filter_cons_of_neg (by simp [Ne.symm hk])
  · obtain ⟨cause, due, h⟩ := damageSlot_noted (q.withUpsets []) i o lost
    rw [h]
    rfl

theorem walkSlot_liveTwoBits {word : RecordWord} (ho : q.order? i = some o) (live : o.state ≠ .damaged) :
    walkSlot (q.withUpsets [{ slot := i, word, bits := 2 }]) i =
      (q.withUpsets []).damageSlot i o (decide (word = .number)) := by
  have ho' : (q.withUpsets [{ slot := i, word, bits := 2 }]).order? i = some o := ho
  have hdrop : (q.withUpsets [{ slot := i, word, bits := 2 }]).dropUpsets (fun u => u.slot == i) = q.withUpsets [] := by
    simp [State.dropUpsets, State.withUpsets]
  rw [walkSlot, ho', Option.isSome_some, if_pos rfl, readSlot_twoBits (word := word) ho' live (by simp [State.withUpsets])
    (by simp [State.withUpsets]), hdrop]

theorem walkSlot_freeTwoBits (ho : q.order? i = none) :
    walkSlot (q.withUpsets [{ slot := i, word := .state, bits := 2 }]) i =
      (q.withUpsets []).damageSlot i unreadableOrder true := by
  generalize hs : q.withUpsets [{ slot := i, word := .state, bits := 2 }] = s
  have ho' : s.order? i = none := hs ▸ ho
  have upsets : s.memory.upsets = [{ slot := i, word := .state, bits := 2 }] := hs ▸ rfl
  have hdrop : s.dropUpsets (fun u => u.slot == i && u.word == .state) = q.withUpsets [] := by
    rw [← hs]
    simp [State.dropUpsets, State.withUpsets]
  have hwords : wrongWords (s.memory.upsets.filter fun u => u.slot == i && u.word == .state) =
      [{ slot := i, word := .state, bits := 2 }] := by
    rw [upsets]
    simp [wrongWords, addUpset]
  have hread : readWords i [{ slot := i, word := .state, bits := 2 }] (.clean, s) =
      ({ AccessFinding.clean with damaged := true }, s) := rfl
  rw [walkSlot, ho', Option.isSome_none, if_neg (by simp), ← hdrop, readFreeSlot]
  simp only [ho', hwords, hread]
  rfl

end

theorem checkedAtStart_withDamaged (s : State) (i : Nat) (o : Order) :
    (s.withDamaged i o).checkedAtStart.withUpsets [] = (s.checkedAtStart.withUpsets []).withDamaged i o := by
  rw [State.checkedAtStart, State.checkedAtStart, storeCheck_eq, storeCheck_eq, foldl_raise_notices, foldl_raise_notices]
  rfl

theorem checkedAtStart_order? (s : State) (i : Nat) : s.checkedAtStart.order? i = s.order? i := by
  rw [State.checkedAtStart, storeCheck_eq]
  rfl

theorem retainedRest_damageSlot {q : State} (clean : CleanStorage q) (x : Sensed) (i : Nat) (o : Order) (lost : Bool) :
    retainedRest x (q.damageSlot i o lost) =
      (retainedRest x (q.withDamaged i
        { o with state := .damaged, number := if lost = true then 0 else o.number })).raise .recordDamaged i := by
  obtain ⟨cause, due, hdamage⟩ := damageSlot_noted q i o lost
  generalize hw : q.withDamaged i { o with state := .damaged, number := if lost = true then 0 else o.number } = w at hdamage
  have cleanW : CleanStorage w := hw ▸ clean
  have hq : q.notices = w.notices := hw ▸ rfl
  have hmemory : q.memory = w.memory := hw ▸ rfl
  obtain ⟨hnotices, hstays⟩ := retainedRest_keeps cleanW x
  rw [hdamage, retainedRest_noted cleanW x _ (hmemory ▸ cleanW), hq, hmemory, ← hnotices, ← hstays]
  rfl

/-- A retained start whose walk finds two wrong bits goes on as with that slot DAMAGED (R178, R185). -/
theorem retainedStart_twoBits {s : State} (clean : CleanStorage s) (whole : s.store.cycle = none) {i : Nat} (hi : i < 64)
    {word : RecordWord} {o : Order} {lost : Bool} (x : Sensed)
    (found : walkSlot (s.checkedAtStart.withUpsets [{ slot := i, word, bits := 2 }]) i =
      (s.checkedAtStart.withUpsets []).damageSlot i o lost) :
    retainedStart x [{ slot := i, word, bits := 2 }] s =
      (retainedStart x [] (s.withDamaged i
        { o with state := .damaged, number := if lost = true then 0 else o.number })).raise .recordDamaged i := by
  have hwalk : walkSlots (s.checkedAtStart.withUpsets [{ slot := i, word, bits := 2 }]) =
      (s.checkedAtStart.withUpsets []).damageSlot i o lost :=
    walkSlots_twoBits hi found
  rw [retainedStart_eq clean whole, hwalk, retainedRest_damageSlot (withUpsets_clean _),
    retainedStart_eq (s := s.withDamaged i _) clean whole, checkedAtStart_withDamaged, walkSlots_clean]
  exact withDamaged_clean (withUpsets_clean _) i _

theorem retainedStart_liveTwoBits {s : State} (clean : CleanStorage s) (whole : s.store.cycle = none) {i : Nat}
    (hi : i < 64) (word : RecordWord) {o : Order} (x : Sensed) (ho : s.order? i = some o) (live : o.state ≠ .damaged) :
    retainedStart x [{ slot := i, word, bits := 2 }] s =
      (retainedStart x [] (s.withDamaged i
        { o with state := .damaged, number := if word = .number then 0 else o.number })).raise .recordDamaged i := by
  have htwo := retainedStart_twoBits clean whole hi x
    (walkSlot_liveTwoBits (word := word) ((checkedAtStart_order? s i).trans ho) live)
  simpa only [decide_eq_true_eq] using htwo

theorem retainedStart_freeTwoBits {s : State} (clean : CleanStorage s) (whole : s.store.cycle = none) {i : Nat}
    (hi : i < 64) (x : Sensed) (ho : s.order? i = none) :
    retainedStart x [{ slot := i, word := .state, bits := 2 }] s =
      (retainedStart x [] (s.withDamaged i unreadableOrder)).raise .recordDamaged i := by
  have hsame : ({ unreadableOrder with state := .damaged, number := if true = true then 0 else unreadableOrder.number } : Order) =
      unreadableOrder := rfl
  have htwo := retainedStart_twoBits clean whole hi x (walkSlot_freeTwoBits ((checkedAtStart_order? s i).trans ho))
  rw [hsame] at htwo
  exact htwo

/-- One wrong bit that a walk corrects is counted, and CORRECTIONS is raised at the threshold (R177). -/
theorem countCorrection_noted (s : State) (i : Nat) :
    let n := s.memory.corrections + 1
    s.countCorrection i = s.noted
      (if n ≤ 65535 ∧ n % s.memory.threshold = 0 then s.notices.raise .corrections i else s.notices)
      { s.memory with corrections := if n ≤ 65535 then n else s.memory.corrections } s.queue.heldCause s.orders.trialDue := by
  unfold State.countCorrection
  by_cases below : s.memory.corrections < 65535
  · have hle : s.memory.corrections + 1 ≤ 65535 := below
    by_cases reached : (s.memory.corrections + 1) % s.memory.threshold = 0
    · simp only [if_pos below, if_pos hle, if_pos reached, if_pos (And.intro hle reached)]
      rfl
    · simp only [if_pos below, if_pos hle, if_neg reached, if_neg (fun h : _ ∧ _ => reached h.2)]
      rfl
  · have hle : ¬s.memory.corrections + 1 ≤ 65535 := below
    simp only [if_neg below, if_neg hle, if_neg (fun h : _ ∧ _ => hle h.1)]
    rfl

theorem walkSlot_liveOneBit {q : State} {i : Nat} {o : Order} {word : RecordWord} (ho : q.order? i = some o)
    (live : o.state ≠ .damaged) :
    walkSlot (q.withUpsets [{ slot := i, word, bits := 1 }]) i = (q.withUpsets []).countCorrection i := by
  have ho' : (q.withUpsets [{ slot := i, word, bits := 1 }]).order? i = some o := ho
  rw [walkSlot, ho', Option.isSome_some, if_pos rfl, readSlot_oneBit (word := word) ho' live (by simp [State.withUpsets])
    (by simp [State.withUpsets]), countCorrection_noted, countCorrection_noted]
  simp [State.dropUpsets, State.withUpsets, State.noted]

theorem walkSlots_oneBit {q : State} {i : Nat} {o : Order} {word : RecordWord} (hi : i < 64) (ho : q.order? i = some o)
    (live : o.state ≠ .damaged) :
    walkSlots (q.withUpsets [{ slot := i, word, bits := 1 }]) = (q.withUpsets []).countCorrection i := by
  refine foldl_at (f := walkSlot) (List.mem_range.mpr hi) (fun k hk => walkSlot_untouched ?_) (walkSlot_liveOneBit ho live)
    fun k => walkSlot_untouched ?_
  · exact List.filter_cons_of_neg (by simp [Ne.symm hk])
  · rw [countCorrection_noted]
    rfl

theorem checkedAtStart_memory {s : State} (good : checkAgrees s.store.general.entries = true) :
    (s.checkedAtStart.withUpsets []).memory.threshold = s.store.general.value 9
      ∧ (s.checkedAtStart.withUpsets []).memory.corrections = s.memory.corrections := by
  rw [State.checkedAtStart, storeCheck_eq]
  refine ⟨?_, rfl⟩
  show s.store.general.afterCheck.generalFigure 9 = _
  rw [afterCheck_agrees good]
  rfl

/-- A retained start whose walk finds one wrong bit corrects and counts it (R177, R185). -/
theorem retainedStart_oneBit {s : State} (clean : CleanStorage s) (whole : s.store.cycle = none)
    (good : checkAgrees s.store.general.entries = true) {i : Nat} (hi : i < 64) (word : RecordWord) {o : Order} (x : Sensed)
    (ho : s.order? i = some o) (live : o.state ≠ .damaged) :
    let t := retainedStart x [] s
    let n := s.memory.corrections + 1
    let t1 := { t with memory := { t.memory with corrections := if n ≤ 65535 then n else s.memory.corrections } }
    retainedStart x [{ slot := i, word, bits := 1 }] s =
      if n ≤ 65535 ∧ n % s.store.general.value 9 = 0 then t1.raise .corrections i else t1 := by
  have hwalk := walkSlots_oneBit (word := word) hi ((checkedAtStart_order? s i).trans ho) live
  obtain ⟨hthreshold, hcorrections⟩ := checkedAtStart_memory good
  rw [retainedStart_eq clean whole, retainedStart_eq clean whole, hwalk, walkSlots_clean (withUpsets_clean _)]
  have cleanQ : CleanStorage (s.checkedAtStart.withUpsets []) := withUpsets_clean _
  generalize s.checkedAtStart.withUpsets [] = q at cleanQ hthreshold hcorrections
  obtain ⟨hnotices, hstays⟩ := retainedRest_keeps cleanQ x
  rw [countCorrection_noted, retainedRest_noted cleanQ x _ (by exact cleanQ), hthreshold, hcorrections]
  generalize retainedRest x q = t at hnotices hstays
  rw [← hnotices, ← hstays]
  by_cases reached : s.memory.corrections + 1 ≤ 65535 ∧ (s.memory.corrections + 1) % s.store.general.value 9 = 0
  · simp only [if_pos reached]
    rfl
  · simp only [if_neg reached]

theorem exec_retainedStart (x : Sensed) (upsets : List Upset) (s : State) :
    exec (.retainedStart x upsets) s = .next (retainedStart x upsets s) := rfl

theorem warmResetDue_iff {s : State} :
    warmResetDue s = true ↔ s.power = .on ∧ s.link.phase = .resetting ∧ s.cycleRuns = false := by
  simp [warmResetDue, and_assoc]

/-- The order of a unit, whether or not it names a slot (R32). -/
theorem unitOrder_eq (s : State) (u : PrintUnit) :
    s.unitOrder u = u.slot.bind fun i => (s.order? i).filter fun o => u.number == some o.number := by
  rw [State.unitOrder]
  cases u.slot <;> rfl

/-- Settles O59, clause by clause: the two starts, the end of a start, the stop of the path unit by unit, one unit
reset-spoiled, and a walk that finds wrong bits. -/
theorem startsAndResetsStopThePath : Obligations.StartsAndResetsStopThePath := by
  unfold Obligations.StartsAndResetsStopThePath
  intro magazine stopped
  refine ⟨fun x s clean whole => ?_, fun a b s => ⟨fun idle => ?_, fun on resetting rests clean => ?_⟩,
    fun s busy => ?_, fun s clean => ?_,
    fun id made i u o s clean hu print valid fresh slot ho number sound hm hfree below => ?_,
    fun x i word s clean whole good hi hlen => ?_⟩
  · intro bad found
    refine ⟨s.store.afterCheck, whole, fun name => afterCheck_sheet s.store name, ?_⟩
    intro s1
    have hs1 : s1 = s.startValues x := rfl
    have hend := endStart_stopped (s := s.startValues x) clean s.startTransit
      (engine := { s with store := s.store.afterCheck }.startEngine x) (fun h => by cases h)
    rw [← retainedStart_clean clean whole x] at hend
    obtain ⟨hself, hengine, htransit, hpower, hclock, hlink, hnotices, hstore, hsorter, hnumber, hstrip, hrun, hcal,
      hfilter, hsurfaces⟩ := hend
    rw [hs1]
    refine ⟨retainedStart x [] s, exec_retainedStart x [] s, hself, hengine, hpower, hclock, hlink, hnotices,
      hstore, hsorter, hnumber, htransit, hstrip, hrun, hcal, hfilter, fun u => ?_⟩
    obtain ⟨hcounter, hdue⟩ := hsurfaces u
    obtain ⟨hkept, hdueKept⟩ := unwaiting_kept s u
    exact ⟨hcounter.trans hkept, hdue.trans hdueKept⟩
  · have hdue : ¬warmResetDue s = true := by
      rw [warmResetDue_iff]
      rintro ⟨on, resetting, rests⟩
      simp [on, resetting, rests] at idle
    exact congrArg Host.Outcome.next (if_neg hdue)
  · intro s1
    have hdue : warmResetDue s = true := warmResetDue_iff.mpr ⟨on, resetting, rests⟩
    have clean1 : CleanStorage s.warmValues := clean
    have htrain := (stopPath_frame clean1).transit
    have hend := endStart_stopped clean1 (stopPath s.warmValues).transit (engine := s.warmEngine a b)
      (fun h => by cases h)
    have hexec : exec (.warmResetEffect a b) s = .next (warmReset a b s) := congrArg Host.Outcome.next (if_pos hdue)
    rw [← warmReset_eq clean] at hend
    rw [show s1 = s.warmValues from rfl]
    obtain ⟨hself, hengine, htransit, hpower, hclock, hlink, hnotices, hstore, hsorter, hnumber, hstrip, hrun, hcal,
      hfilter, hsurfaces⟩ := hend
    rw [htransit] at hself
    exact ⟨warmReset a b s, hexec, hself, hengine, hpower.trans on, hclock, hstore, hlink,
      hnotices, hsorter, hnumber, htransit.trans htrain, hstrip, hrun, hcal, hfilter, hsurfaces⟩
  · have hend := endStart_eq busy
    generalize pricingPass s = p at hend ⊢
    exact hend
  · intro flight surface read order reprinted distinct apart free voided t last replaces
    have hread : read = s.cal.strip.readUnit := by
      show (match s.cal.strip with | .reading _ id _ _ => some id | _ => none) = _
      cases s.cal.strip <;> rfl
    have horder (u : PrintUnit) : order u = s.unitOrder u := (unitOrder_eq s u).symm
    have hreprinted (cls : OrderClass) : reprinted cls = s.reprinted cls := by
      funext id
      show ((s.unit? id).any fun u => u.kind != .strip && !u.void && !u.spoiled
        && (order u).any fun o => o.state != .damaged && o.queueClass == cls) = _
      simp only [horder]
      rfl
    rw [hread] at distinct apart
    simp only [horder] at voided
    obtain ⟨hnodup, hrush, hstandard, horigin, hothers, horders, hfigures⟩ := stopPath_flight clean distinct apart free voided
    refine ⟨s.reprints.1.1, s.reprints.1.2, hnodup, ?_, ?_, horigin, ?_, horders, hfigures, ?_⟩
    · show _ = (flight.filter (reprinted .rush)).map _
      rw [hreprinted]
      exact hrush
    · show _ = (flight.filter (reprinted .standard)).map _
      rw [hreprinted]
      exact hstandard
    · exact fun id hid => (hothers id hid).trans (if_congr (by rw [← hread]; exact Iff.rfl) rfl rfl)
    · have hsurfaces : (match surface with
          | none => s.cal.surfaces
          | some u => s.cal.surfaces.set u { s.surface u with last := some last }) = s.abandoned := by
        have hsurface : surface = s.cal.strip.surface := by
          show (match s.cal.strip with
            | .none => none | .out u _ _ => some u | .reading u _ _ _ => some u | .settling u _ => some u) = _
          cases s.cal.strip <;> rfl
        rewrite [hsurface]
        rfl
      have ht : t = _ := stopPath_spec clean
      refine ht.trans ?_
      rewrite [← hsurfaces, ht]
      rfl
  · have hmade : s.queue.pool.findIdx? Option.isNone = some made := findIdx?_free.mpr ⟨hm, hfree, below⟩
    exact resetSpoilAll_one clean hu print valid fresh slot ho number sound hmade
  · intro finds
    refine ⟨fun ho => ⟨unreadableOrder, rfl, rfl, ?_⟩, fun o ho live => ⟨?_, ?_⟩⟩
    · exact ⟨_, exec_retainedStart x [] (s.withDamaged i unreadableOrder),
        congrArg Host.Outcome.next (retainedStart_freeTwoBits clean whole hi x ho)⟩
    · exact ⟨_, exec_retainedStart x [] (s.withDamaged i
          { o with state := .damaged, number := if word = .number then 0 else o.number }),
        congrArg Host.Outcome.next (retainedStart_liveTwoBits clean whole hi word x ho live)⟩
    · exact ⟨_, exec_retainedStart x [] s,
        congrArg Host.Outcome.next (retainedStart_oneBit clean whole (good .general).1 hi word x ho live)⟩

end Sys2Proof.Machine
end

section
/-! Admission (R32 to R36, R48; O28). -/

namespace Sys2Proof.Machine

/-- The units of an order's lines, each line with its position and its own figures (R36). -/
theorem admittedUnits_eq (slot number : Nat) (figure : Line → LineFigure) (lines : List Line) (position : Nat) :
    admittedUnits slot number position lines (lines.map figure) =
      (lines.zipIdx position).flatMap fun (l, p) => lineUnits slot number p l (figure l) := by
  induction lines generalizing position with
  | nil => rfl
  | cons l rest ih => simp only [List.map_cons, admittedUnits, List.zipIdx_cons, List.flatMap_cons, ih]

/-- An admission makes one unit for every print. -/
theorem admittedUnits_length (slot number : Nat) (figure : Line → LineFigure) (lines : List Line) (position : Nat) :
    (admittedUnits slot number position lines (lines.map figure)).length = totalQuantity lines := by
  induction lines generalizing position with
  | nil => rfl
  | cons l rest ih => simp [admittedUnits, lineUnits, totalQuantity, ih]

/-- The queue count rises by the units that are admitted (R35). -/
theorem admitOrder_queueCount (i : Nat) (o : Order) (s : State) :
    (admitOrder i o s).queueCount = s.queueCount + (placeUnits s.queue.pool (admissionUnits i o s)).1.length := by
  rw [admitOrder_eq]
  unfold State.queueCount ExposureQueue.ids
  cases o.queueClass <;> simp <;> omega

/-- Settles O28, by what placing as many units as there is room for does to the pool (`placeUnits_spec`). -/
theorem admissionMakesEveryUnit : Obligations.AdmissionMakesEveryUnit := by
  intro i o s _ _ room t figure
  have hlength : (admissionUnits i o s).length = totalQuantity o.lines := admittedUnits_length ..
  obtain ⟨hids, hnodup, hfree, hmade, hothers, -⟩ :=
    placeUnits_spec (admissionUnits i o s) s.queue.pool (hlength ▸ room)
  have hpool : t.queue.pool = (placeUnits s.queue.pool (admissionUnits i o s)).2 := by
    show (admitOrder i o s).queue.pool = _
    rw [admitOrder_eq]
  have hunit : t.unit? = recordOf (placeUnits s.queue.pool (admissionUnits i o s)).2 :=
    funext fun id => (unit?_eq t id).trans (by rw [hpool])
  refine ⟨(placeUnits s.queue.pool (admissionUnits i o s)).1, hids.trans hlength, hnodup, hfree, fun id hid => ?_,
    ?_, ?_, ?_⟩
  · rw [hunit]
    exact hothers id hid
  · rw [hunit, hmade, admissionUnits, admittedUnits_eq, List.map_flatMap]
    refine congrArg (List.flatMap · _) (funext fun (l, p) => ?_)
    exact List.map_map
  · rw [admitOrder_queueCount, hids, hlength]
  · rw [hpool]
    exact admitOrder_eq i o s

end Sys2Proof.Machine
end

section
/-! RELEASE_DAMAGED (R48, R179; O22). -/

namespace Sys2Proof.Machine

/-! ### Bins handed to the Sorter (R179) -/

/-- A bin that is handed to the Sorter. -/
def Bin.handedBack (b : Bin) : Bin := { b with state := .discard, number := none, slot := none, opened := false }

/-- The bins after some of them, by their numbers, are handed to the Sorter. -/
def handedBack (bins : List Bin) (numbers : List Nat) : List Bin :=
  numbers.foldl (fun bins n => bins.set (n - 1) (bins.getD (n - 1) Bin.reset).handedBack) bins

/-- A bin's record names a slot: it is filling or ready for the slot's order (R179). -/
abbrev Bin.Names (b : Bin) (slot : Nat) : Prop := b.slot = some slot ∧ (b.state = .filling ∨ b.state = .ready)

/-- Bins handed back one after another change the bins alone. -/
theorem foldl_handBack (numbers : List Nat) (s : State) :
    numbers.foldl (fun s n => handBack n s) s =
      { s with sorter := { s.sorter with bins := handedBack s.sorter.bins numbers } } := by
  induction numbers generalizing s with
  | nil => rfl
  | cons n rest ih => exact ih (handBack n s)

/-- Bin `n` stands at index `n - 1`. -/
theorem getD_set_bin (bins : List Bin) (x : Bin) {n b : Nat} (n1 : 1 ≤ n) (hn : n ≤ bins.length) (b1 : 1 ≤ b) :
    (bins.set (n - 1) x).getD (b - 1) Bin.reset = if b = n then x else bins.getD (b - 1) Bin.reset := by
  simp only [List.getD_eq_getElem?_getD, List.getElem?_set]
  by_cases h : b = n
  · subst h
    have hlt : b - 1 < bins.length := by omega
    simp [hlt]
  · have hne : n - 1 ≠ b - 1 := by omega
    simp [h, hne]

/-- Exactly the bins of the list are handed back; a bin handed back twice is as handed back once. -/
theorem getD_handedBack (numbers : List Nat) (bins : List Bin) (inside : ∀ n ∈ numbers, 1 ≤ n ∧ n ≤ bins.length)
    {b : Nat} (b1 : 1 ≤ b) :
    (handedBack bins numbers).getD (b - 1) Bin.reset =
      if b ∈ numbers then (bins.getD (b - 1) Bin.reset).handedBack else bins.getD (b - 1) Bin.reset := by
  induction numbers generalizing bins with
  | nil => rfl
  | cons n rest ih =>
    obtain ⟨n1, hn⟩ := inside n List.mem_cons_self
    refine (ih (bins.set (n - 1) _) fun k hk => ?_).trans ?_
    · simpa using inside k (List.mem_cons_of_mem n hk)
    · rw [getD_set_bin bins _ n1 hn b1]
      by_cases hbn : b = n <;> by_cases hrest : b ∈ rest <;> simp [hbn, hrest, Bin.handedBack]

theorem mem_binNumbers {n : Nat} : n ∈ binNumbers ↔ 1 ≤ n ∧ n ≤ 24 := by
  simp only [binNumbers, List.mem_map, List.mem_range]
  exact ⟨by rintro ⟨k, hk, rfl⟩; omega, fun h => ⟨n - 1, by omega, by omega⟩⟩

/-- The bins of a slot are those whose record names it (R179). -/
theorem binsOfSlot_eq (slot : Nat) (s : State) :
    binsOfSlot slot s = binNumbers.filter fun n => decide ((s.bin n).Names slot) := by
  refine List.filter_congr fun n _ => ?_
  rw [Bool.eq_iff_iff]
  simp

/-! ### The release (R179) -/

section
variable {s : State} {slot : Nat}

/-- What a release answers, and all it changes (R48, R179). -/
theorem releaseSlot_eq (slot : Nat) (o : Order) (s : State) :
    let gone := s.queuedWhere fun u => u.slot == some slot
    let bins := binsOfSlot slot s
    releaseSlot slot o s = (.answer .ok (item16 o.number ++ itemOption item8 bins.head? ++ item16 gone.length), { s with
      orders := { s.orders with
        slots := s.orders.slots.set slot none, trialDue := s.orders.trialDue || decide (gone ≠ []) }
      queue := { s.queue with
        strip := s.queue.strip.filter fun id => !gone.contains id
        rush := s.queue.rush.filter fun id => !gone.contains id
        standard := s.queue.standard.filter fun id => !gone.contains id
        figures := s.queue.figures.set slot none
        pool := freeRecords s.queue.pool gone, signal := s.queue.signal || decide (gone ≠ []) }
      sorter := { s.sorter with bins := handedBack s.sorter.bins bins }
      memory := { s.memory with upsets := s.memory.upsets.filter fun u => u.slot != slot } }) := by
  intro gone bins
  have hbins : binsOfSlot slot ((s.removeQueued gone).setFigures slot none) = bins := by
    rw [removeQueued_eq]
    rfl
  simp only [releaseSlot, okay, foldl_handBack, gone] at hbins ⊢
  rw [hbins, removeQueued_eq]
  simp only [State.freeSlot, State.setFigures, List.set_set]

/-- A slot number out of range is refused first (R179). -/
theorem decideReleaseDamaged_badValue (outside : 63 < slot) :
    decideReleaseDamaged slot s = (.answer .badValue [], s) := if_pos outside

/-- On clean storage a slot that is not DAMAGED is left as it is (log entry 33). -/
theorem decideReleaseDamaged_wrongState (inside : slot ≤ 63) (clean : CleanStorage s)
    (sound : ∀ o, s.order? slot = some o → o.state ≠ .damaged) :
    decideReleaseDamaged slot s = (.answer .wrongState [], s) := by
  simp only [decideReleaseDamaged, Nat.not_lt.mpr inside, if_false, readSlot_clean clean]
  cases ho : s.order? slot with
  | none => rfl
  | some o => exact if_neg (sound o ho)

theorem decideReleaseDamaged_released {o : Order} (inside : slot ≤ 63) (ho : s.order? slot = some o)
    (damaged : o.state = .damaged) : decideReleaseDamaged slot s = releaseSlot slot o s := by
  simp only [decideReleaseDamaged, Nat.not_lt.mpr inside, if_false, readSlot_damaged ho damaged, ho, damaged, if_true]

end

/-- Settles O22, by the release's answer and effect as one equation (`releaseSlot_eq`). -/
theorem releaseDamagedFreesTheSlot : Obligations.ReleaseDamagedFreesTheSlot := by
  refine ⟨fun h slot s calm => ⟨fun outside => ?_, fun inside clean sound => ?_⟩,
    fun h slot o s calm inside ho damaged hbins => ?_⟩
  · exact exec_unchanged (c := .releaseDamaged h slot) rfl calm (decideReleaseDamaged_badValue outside)
  · exact exec_unchanged (c := .releaseDamaged h slot) rfl calm (decideReleaseDamaged_wrongState inside clean sound)
  · intro gone names
    have hrelease := (decideReleaseDamaged_released inside ho damaged).trans (releaseSlot_eq slot o s)
    rw [calm.noSignal, calm.noTrial, binsOfSlot_eq, List.head?_filter] at hrelease
    refine ⟨_, congrArg Host.Outcome.next (serveActing_answer calm.accepts hrelease), rfl, rfl, fun id => ?_,
      fun n n1 n24 => ?_, rfl⟩
    · exact recordOf_freeRecords gone s.queue.pool id
    · refine (getD_handedBack _ s.sorter.bins (fun k hk => ?_) n1).trans ?_
      · rw [hbins]
        exact mem_binNumbers.mp (List.mem_of_mem_filter hk)
      · have hmem : n ∈ binNumbers.filter (fun n => decide ((s.bin n).Names slot)) ↔ names (s.bin n) := by
          rw [List.mem_filter, decide_eq_true_iff]
          exact and_iff_right (mem_binNumbers.mpr ⟨n1, n24⟩)
        exact if_congr hmem rfl rfl

end Sys2Proof.Machine
end

section
/-! Selections: eligibility, the removal of DAMAGED orders, and the ordered cases (R43, R47 to R51; O35). -/

namespace Sys2Proof.Machine

/-! ### Eligibility (R47) -/

/-- A unit is of a DAMAGED order (R25, R43). -/
theorem unitDamaged_eq (s : State) (u : PrintUnit) :
    s.unitDamaged u = u.slot.any fun i => (s.order? i).any fun o => o.state == .damaged := by
  unfold State.unitDamaged
  cases u.slot <;> rfl

theorem unitDamaged_eq_false {s : State} {u : PrintUnit} :
    s.unitDamaged u = false ↔ ∀ i o, u.slot = some i → s.order? i = some o → o.state ≠ .damaged := by
  rw [unitDamaged_eq]
  simp only [Option.any_eq_false, beq_eq_false_iff_ne]
  exact ⟨fun h i o hi ho => h i hi o ho, fun h i hi o ho => h i o hi ho⟩

/-- A surface under no strict hold: not due, or not held by a good sheet's strict figure (R47, R145). -/
theorem strictHold_eq_false {s : State} {surface : Nat} :
    s.strictHold surface = false ↔ (s.surface surface).due = false ∨ s.store.calibration.bad = true
      ∨ s.store.calibration.value (48 + surface) = 0 := by
  simp only [State.strictHold, Sheet.strict, Bool.and_eq_false_iff, Bool.not_eq_false', bne_eq_false_iff_eq, or_assoc]

/-- An eligible unit is one in use that passes R47's tests. -/
theorem eligible_iff {m : Magazine} {id : Nat} {s : State} :
    s.eligible m id = true ↔ ∃ u, s.unit? id = some u
      ∧ (s.engine.mag m).present = true ∧ (s.engine.mag m).paperEnd = false
      ∧ (s.engine.mag m).surface = some u.surface
      ∧ (u.kind = .strip ∨ ((s.engine.mag m).width.isSome = true ∧ (s.engine.mag m).width = u.width))
      ∧ u.length + s.store.general.reserve ≤ (s.engine.mag m).remaining
      ∧ (u.kind = .strip ∨ s.strictHold u.surface = false)
      ∧ s.unitDamaged u = false ∧ s.unitsInUse ≤ 505 := by
  unfold State.eligible
  cases s.unit? id with
  | none => simp
  | some u => simp [Config.grantLimit, and_assoc]

/-! ### The removal of DAMAGED orders (R43) -/

/-- The figures entries with those of some slots removed. -/
def State.figuresWithout (s : State) (slots : List Nat) : List (Option FigureEntry) :=
  (slots.foldl (fun s i => s.setFigures i none) s).queue.figures

/-- Entries removed one after another change the figures alone. -/
theorem foldl_setFigures (slots : List Nat) (s : State) :
    slots.foldl (fun s i => s.setFigures i none) s =
      { s with queue := { s.queue with figures := s.figuresWithout slots } } := by
  induction slots generalizing s with
  | nil => rfl
  | cons i rest ih => exact ih (s.setFigures i none)

theorem figures?_setFigures_none (s : State) (i k : Nat) :
    (s.setFigures i none).figures? k = if i = k then none else s.figures? k := figures?_freeSlot i k

theorem getD_figuresWithout (slots : List Nat) (s : State) (k : Nat) :
    (s.figuresWithout slots).getD k none = if k ∈ slots then none else s.figures? k := by
  induction slots generalizing s with
  | nil => rfl
  | cons i rest ih =>
    refine (ih (s.setFigures i none)).trans ?_
    rw [figures?_setFigures_none]
    by_cases h : i = k
    · simp [h]
    · simp [h, Ne.symm h]

/-- The slots of units are those that a unit's record names. -/
theorem mem_slotsOf {s : State} {ids : List Nat} {i : Nat} :
    i ∈ s.slotsOf ids ↔ (ids.any fun id => (s.unit? id).any fun u => u.slot == some i) = true := by
  simp only [State.slotsOf, List.mem_filterMap, List.any_eq_true, Option.any_eq_true, beq_iff_eq, Option.bind_eq_some_iff]

/-- The queued units of DAMAGED orders, which a selection removes (R43). -/
def State.damagedUnits (s : State) : List Nat :=
  (s.queue.rush ++ s.queue.standard).filter fun id => (s.unit? id).any s.unitDamaged

/-- On clean storage the removal finds the orders that are DAMAGED already, and a held trial follows (R43). -/
theorem removeDamaged_clean {s : State} (clean : CleanStorage s) :
    removeDamaged s = runTrials { s with
      orders := { s.orders with trialDue := s.orders.trialDue || decide (s.damagedUnits ≠ []) }
      queue := { s.queue with
        pool := freeRecords s.queue.pool s.damagedUnits
        figures := s.figuresWithout (s.slotsOf s.damagedUnits)
        strip := s.queue.strip.filter fun id => !s.damagedUnits.contains id
        rush := s.queue.rush.filter fun id => !s.damagedUnits.contains id
        standard := s.queue.standard.filter fun id => !s.damagedUnits.contains id
        signal := s.queue.signal || decide (s.damagedUnits ≠ []) } } := by
  simp only [removeDamaged, readSlots_clean clean, foldl_setFigures, removeQueued_eq]
  rfl

/-! ### The ordered cases (R49 to R51) -/

/-- The state that a grant leaves, with the run count after it: the unit is out of the queue and in the engine's place,
and a held trial is owed (R50, R51). -/
def State.afterGrant (s : State) (id run : Nat) : State :=
  { s with
    orders := { s.orders with trialDue := true }
    queue := { s.queue with
      strip := s.queue.strip.filter fun k => k != id
      rush := s.queue.rush.filter fun k => k != id
      standard := s.queue.standard.filter fun k => k != id
      runCount := run
      pool := s.queue.pool.set id ((s.unit? id).map fun u => { u with place := .engine }) } }

theorem takeGranted_eq {s : State} {id : Nat} {u : PrintUnit} (hu : s.unit? id = some u) (run : Nat) :
    takeGranted id { s with queue := { s.queue with runCount := run } } = s.afterGrant id run := by
  have hu' : (({ s with queue := { s.queue with runCount := run } } : State).leaveQueue [id]).unit? id = some u := hu
  have hkeep : (fun k => !([id] : List Nat).contains k) = fun k => k != id := by
    funext k
    rw [bne, List.contains_cons, List.contains_nil, Bool.or_false]
  simp only [takeGranted, State.modifyUnit, hu', State.afterGrant, hu, Option.map_some]
  simp only [State.leaveQueue, hkeep]
  rfl

/-- The first eligible unit of a section on the active magazine (R49). -/
def State.firstHere (s : State) (ids : List Nat) : Option Nat := ids.find? (s.eligible s.engine.active)

/-- The first eligible unit of a section on the other magazine (R49). -/
def State.firstThere (s : State) (ids : List Nat) : Option Nat := ids.find? (s.eligible s.engine.active.other)

section
variable {s : State} {id : Nat} {ids : List Nat}

theorem firstHere_eq_some : s.firstHere ids = some id ↔ ∃ before after, ids = before ++ id :: after
    ∧ s.eligible s.engine.active id = true ∧ ∀ k ∈ before, ¬s.eligible s.engine.active k = true := by
  unfold State.firstHere
  rw [List.find?_eq_some_iff_append]
  simp only [Bool.not_eq_true', Bool.not_eq_true]
  exact ⟨fun ⟨h, before, after, hids, hnot⟩ => ⟨before, after, hids, h, hnot⟩,
    fun ⟨before, after, hids, h, hnot⟩ => ⟨h, before, after, hids, hnot⟩⟩

theorem firstHere_eq_none : s.firstHere ids = none ↔ ∀ k ∈ ids, ¬s.eligible s.engine.active k = true :=
  List.find?_eq_none

theorem firstThere_eq_none : s.firstThere ids = none ↔ ∀ k ∈ ids, ¬s.eligible s.engine.active.other k = true :=
  List.find?_eq_none

theorem firstThere_isSome : (s.firstThere ids).isSome = true ↔ ∃ k ∈ ids, s.eligible s.engine.active.other k = true :=
  List.find?_isSome

/-- A unit that is eligible has a record. -/
theorem unit?_of_firstHere (h : s.firstHere ids = some id) : ∃ u, s.unit? id = some u := by
  obtain ⟨-, -, -, heligible, -⟩ := firstHere_eq_some.mp h
  obtain ⟨u, hu, -⟩ := eligible_iff.mp heligible
  exact ⟨u, hu⟩

theorem settleSelection_full (h : 505 < s.unitsInUse) : settleSelection s = (.none, s) := if_pos h

/-- The conditions under which a selection looks for a unit: units in use and no change of magazine to make (R49). -/
structure Choosing (s : State) : Prop where
  room  : s.unitsInUse ≤ 505
  stays : ¬(s.engine.selectPending = true ∧ (s.engine.mag s.engine.active.other).present = true)

theorem settleSelection_pending (room : s.unitsInUse ≤ 505) (pending : s.engine.selectPending = true)
    (present : (s.engine.mag s.engine.active.other).present = true) : settleSelection s = (.switch, s) := by
  unfold settleSelection
  rw [if_neg (Nat.not_lt.mpr room)]
  exact if_pos (by simp [pending, present])

/-- The cases of a selection once it looks for a unit (R49, R50). -/
theorem settleSelection_choosing (h : Choosing s) : settleSelection s =
    match s.firstHere s.queue.strip with
    | some id => (.grant id, takeGranted id s)
    | none =>
      if (s.firstThere s.queue.strip).isSome then (.switch, s)
      else if (s.firstHere s.queue.rush).isNone && (s.firstThere s.queue.rush).isSome then (.switch, s)
      else
        match grantChoice (s.firstHere s.queue.rush) (s.firstHere s.queue.standard) s.queue.runCount
            s.store.general.starvationLimit with
        | (some id, run) => (.grant id, takeGranted id { s with queue := { s.queue with runCount := run } })
        | (none, _) =>
          if (s.firstThere (s.queue.rush ++ s.queue.standard)).isSome then (.switch, s) else (.none, s) := by
  unfold settleSelection
  rw [if_neg (Nat.not_lt.mpr h.room), if_neg (by simpa using h.stays)]
  rfl

theorem settleSelection_strip (h : Choosing s) (strip : s.firstHere s.queue.strip = some id) :
    settleSelection s = (.grant id, s.afterGrant id s.queue.runCount) := by
  obtain ⟨u, hu⟩ := unit?_of_firstHere strip
  simp only [settleSelection_choosing h, strip]
  exact congrArg _ (takeGranted_eq hu s.queue.runCount)

theorem settleSelection_stripThere (h : Choosing s) (here : s.firstHere s.queue.strip = none)
    (there : (s.firstThere s.queue.strip).isSome = true) : settleSelection s = (.switch, s) := by
  simp only [settleSelection_choosing h, here, there, if_true]

/-- A selection with no strip eligible on either magazine (R49). -/
structure PastStrips (s : State) : Prop extends Choosing s where
  here  : s.firstHere s.queue.strip = none
  there : s.firstThere s.queue.strip = none

theorem settleSelection_rushThere (h : PastStrips s) (here : s.firstHere s.queue.rush = none)
    (there : (s.firstThere s.queue.rush).isSome = true) : settleSelection s = (.switch, s) := by
  simp [settleSelection_choosing h.toChoosing, h.here, h.there, here, there]

/-- The unit that the run count's rule chooses is granted, unless only the other magazine has a RUSH unit (R49, R50). -/
theorem settleSelection_chosen {run : Nat} (h : PastStrips s)
    (rush : (s.firstHere s.queue.rush).isSome = true ∨ s.firstThere s.queue.rush = none)
    (chosen : grantChoice (s.firstHere s.queue.rush) (s.firstHere s.queue.standard) s.queue.runCount
      s.store.general.starvationLimit = (some id, run))
    (used : ∃ u, s.unit? id = some u) : settleSelection s = (.grant id, s.afterGrant id run) := by
  obtain ⟨u, hu⟩ := used
  have stays : ((s.firstHere s.queue.rush).isNone && (s.firstThere s.queue.rush).isSome) = false := by
    rcases rush with h | h
    · rw [← Option.not_isSome, h]; rfl
    · rw [h]; simp
  simp only [settleSelection_choosing h.toChoosing, h.here, h.there, stays, chosen, takeGranted_eq hu, Option.isSome_none,
    Bool.false_eq_true, if_false]

/-- With no unit eligible here and no RUSH unit there, a STANDARD unit there decides (R49). -/
theorem settleSelection_standardThere (h : PastStrips s) (rush : s.firstHere s.queue.rush = none)
    (rushThere : s.firstThere s.queue.rush = none) (standard : s.firstHere s.queue.standard = none) :
    settleSelection s = if (s.firstThere s.queue.standard).isSome = true then (.switch, s) else (.none, s) := by
  have hthere : s.firstThere (s.queue.rush ++ s.queue.standard) = s.firstThere s.queue.standard := by
    unfold State.firstThere at rushThere ⊢
    rw [List.find?_append, rushThere, Option.none_or]
  simp [settleSelection_choosing h.toChoosing, h.here, h.there, rush, rushThere, standard, grantChoice, hthere]

end

/-- Settles O35: R47's tests, the removal on clean storage, and R49's cases in their order, each by its lemma. -/
theorem selectionGrantsAnEligibleUnit : Obligations.SelectionGrantsAnEligibleUnit := by
  refine ⟨fun m id s => ?_, fun s clean => ?_, fun s => ?_⟩
  · intro r reserve
    refine eligible_iff.trans (exists_congr fun u => ?_)
    rw [strictHold_eq_false, unitDamaged_eq_false]
    rfl
  · intro gone
    have hgone : s.damagedUnits = gone := by
      refine List.filter_congr fun id _ => congrArg (Option.any · _) (funext (unitDamaged_eq s))
    have hremove := removeDamaged_clean clean
    rw [hgone] at hremove
    refine ⟨_, congrArg settleSelection hremove, fun id => ?_, fun i => ?_, rfl⟩
    · exact recordOf_freeRecords gone s.queue.pool id
    · exact (getD_figuresWithout _ s i).trans (if_congr mem_slotsOf rfl rfl)
  · intro e here there first limit granted switches nothing pending
    refine ⟨settleSelection_full, fun room =>
      ⟨fun ⟨hp, present⟩ => settleSelection_pending room hp present, fun stays => ?_⟩⟩
    have choosing : Choosing s := ⟨room, stays⟩
    refine ⟨fun id hid => settleSelection_strip choosing (firstHere_eq_some.mpr hid), fun strip => ?_⟩
    rw [← firstHere_eq_none] at strip
    refine ⟨fun h => settleSelection_stripThere choosing strip (firstThere_isSome.mpr h), fun stripThere => ?_⟩
    have past : PastStrips s := ⟨choosing, strip, firstThere_eq_none.mpr stripThere⟩
    refine ⟨fun r hr => ?_, fun rush => ?_⟩
    · have rush := firstHere_eq_some.mpr hr
      have isSome : (s.firstHere s.queue.rush).isSome = true := by rw [rush]; rfl
      refine ⟨fun st hst => ?_, fun standard => ?_⟩
      · have standard := firstHere_eq_some.mpr hst
        have choice := congrArg₂ (grantChoice · · s.queue.runCount s.store.general.starvationLimit) rush standard
        split
        · next hlimit =>
          exact settleSelection_chosen past (.inl isSome) (choice.trans (if_pos hlimit)) (unit?_of_firstHere standard)
        · next hlimit =>
          exact settleSelection_chosen past (.inl isSome) (choice.trans (if_neg hlimit)) (unit?_of_firstHere rush)
      · have standard := firstHere_eq_none.mpr standard
        exact settleSelection_chosen past (.inl isSome) (by rw [rush, standard]; rfl) (unit?_of_firstHere rush)
    · have rush := firstHere_eq_none.mpr rush
      refine ⟨fun h => settleSelection_rushThere past rush (firstThere_isSome.mpr h), fun rushThere => ?_⟩
      have rushThere := firstThere_eq_none.mpr rushThere
      refine ⟨fun st hst => ?_, fun standard => ?_⟩
      · have standard := firstHere_eq_some.mpr hst
        exact settleSelection_chosen past (.inr rushThere) (by rw [rush, standard]; rfl) (unit?_of_firstHere standard)
      · have hlast := settleSelection_standardThere past rush rushThere (firstHere_eq_none.mpr standard)
        exact ⟨fun h => hlast.trans (if_pos (firstThere_isSome.mpr h)),
          fun h => hlast.trans (if_neg (by simp [firstThere_eq_none.mpr h]))⟩

end Sys2Proof.Machine
end

section
/-! Exposure arithmetic: step sums, first times, clamped times and the line period (R59 to R66; O39, O40). -/

namespace Sys2Proof.Machine

/-! ### Rounding half up (1.8) -/

/-- A quotient that is no smaller, compared by its cross products, does not round to less. -/
theorem roundHalfUp_le_roundHalfUp {n d n' d' : Nat} (hd : 0 < d) (hd' : 0 < d') (h : n * d' ≤ n' * d) :
    roundHalfUp n d ≤ roundHalfUp n' d' := by
  unfold roundHalfUp
  rw [Nat.le_div_iff_mul_le (by omega)]
  set x := (2 * n + d) / (2 * d)
  have hx : x * (2 * d) ≤ 2 * n + d := Nat.div_mul_le_self _ _
  refine Nat.le_of_mul_le_mul_left ?_ hd
  calc d * (x * (2 * d')) = x * (2 * d) * d' := by ring
    _ ≤ (2 * n + d) * d' := Nat.mul_le_mul_right _ hx
    _ = 2 * (n * d') + d * d' := by ring
    _ ≤ 2 * (n' * d) + d * d' := by omega
    _ = d * (2 * n' + d') := by ring

/-! ### Whole stops, tenths and the fraction entry (R60, R61) -/

theorem wholeStops_floor (sum : Int) : 10 * wholeStops sum ≤ sum ∧ sum < 10 * (wholeStops sum + 1) := by
  unfold wholeStops
  omega

theorem tenths_cast (sum : Int) : (tenths sum : Int) = sum - 10 * wholeStops sum := by
  unfold tenths wholeStops
  omega

theorem tenths_le_nine (sum : Int) : tenths sum ≤ 9 := by
  unfold tenths
  omega

/-- The stops and the tenths give the step sum back. -/
theorem wholeStops_add_tenths (sum : Int) : 10 * wholeStops sum + tenths sum = sum := by
  rw [tenths_cast]
  omega

theorem wholeStops_mono {a b : Int} (h : a ≤ b) : wholeStops a ≤ wholeStops b :=
  Int.ediv_le_ediv (by decide) h

/-- Between two negative stops the floor is the lower one, where a division that cuts off takes the upper (R60). -/
theorem wholeStops_of_neg {sum : Int} (neg : sum < 0) (between : sum % 10 ≠ 0) :
    wholeStops sum = sum.tdiv 10 - 1 := by
  have hsign : ¬(0 ≤ sum ∨ (10 : Int) ∣ sum) := by omega
  rw [Int.tdiv_eq_ediv, if_neg hsign, Int.sign_eq_one_of_pos (by decide)]
  exact (Int.add_sub_cancel _ 1).symm

/-- The entry of the fraction table that a step sum's tenths select (R61). -/
def fraction (sum : Int) : Nat := fractionTable.getD (tenths sum) 0

/-- The fraction table ascends. -/
theorem fractionTable_mono : ∀ r ≤ 9, ∀ t ≤ r, fractionTable.getD t 0 ≤ fractionTable.getD r 0 := by decide

theorem fraction_le_fraction {a b : Int} (h : tenths a ≤ tenths b) : fraction a ≤ fraction b :=
  fractionTable_mono _ (tenths_le_nine b) _ h

theorem le_fraction (sum : Int) : 1024 ≤ fraction sum :=
  fractionTable_mono _ (tenths_le_nine sum) 0 (Nat.zero_le _)

theorem fraction_le (sum : Int) : fraction sum ≤ 1911 :=
  fractionTable_mono 9 le_rfl _ (tenths_le_nine sum)

/-! ### The first time (R62) -/

/-- The first time in one form for both signs: of the two powers at most one is above 1. -/
theorem firstTime_eq (base : Nat) (sum : Int) :
    firstTime base sum =
      roundHalfUp (base * fraction sum * 2 ^ (wholeStops sum).toNat) (1024 * 2 ^ (-wholeStops sum).toNat) := by
  unfold firstTime fraction
  cases h : wholeStops sum with
  | ofNat q => simp
  | negSucc q => simp [Int.neg_negSucc]

/-- The scaling of the base time rises with the step sum. Within one stop the table ascends, and from a stop to
the next the power doubles, which is more than any entry's excess over 1024. -/
theorem fraction_scaled_le {a b : Int} (h : a ≤ b) :
    fraction a * 2 ^ ((wholeStops a).toNat + (-wholeStops b).toNat) ≤
      fraction b * 2 ^ ((wholeStops b).toNat + (-wholeStops a).toNat) := by
  rcases (wholeStops_mono h).eq_or_lt with same | higher
  · have htenths : tenths a ≤ tenths b := by
      have := wholeStops_add_tenths a
      have := wholeStops_add_tenths b
      omega
    rw [same]
    exact Nat.mul_le_mul_right _ (fraction_le_fraction htenths)
  · have hpower : (wholeStops a).toNat + (-wholeStops b).toNat + 1 ≤
        (wholeStops b).toNat + (-wholeStops a).toNat := by omega
    have hdouble : fraction a ≤ fraction b * 2 := by
      have := fraction_le a
      have := le_fraction b
      omega
    calc fraction a * 2 ^ ((wholeStops a).toNat + (-wholeStops b).toNat)
        ≤ fraction b * 2 * 2 ^ ((wholeStops a).toNat + (-wholeStops b).toNat) := Nat.mul_le_mul_right _ hdouble
      _ = fraction b * 2 ^ ((wholeStops a).toNat + (-wholeStops b).toNat + 1) := by ring
      _ ≤ _ := Nat.mul_le_mul_left _ (Nat.pow_le_pow_right (by decide) hpower)

/-- A larger base time or a larger step sum never gives a shorter first time. -/
theorem firstTime_le_firstTime {base base' : Nat} {a b : Int} (hbase : base ≤ base') (h : a ≤ b) :
    firstTime base a ≤ firstTime base' b := by
  rw [firstTime_eq, firstTime_eq]
  refine roundHalfUp_le_roundHalfUp (by positivity) (by positivity) ?_
  calc base * fraction a * 2 ^ (wholeStops a).toNat * (1024 * 2 ^ (-wholeStops b).toNat)
      = base * (fraction a * 2 ^ ((wholeStops a).toNat + (-wholeStops b).toNat)) * 1024 := by ring
    _ ≤ base' * (fraction b * 2 ^ ((wholeStops b).toNat + (-wholeStops a).toNat)) * 1024 :=
        Nat.mul_le_mul_right _ (Nat.mul_le_mul hbase (fraction_scaled_le h))
    _ = base' * fraction b * 2 ^ (wholeStops b).toNat * (1024 * 2 ^ (-wholeStops a).toNat) := by ring

/-- The numerator's scaling is greatest at the step sum 60, which is six whole stops and no tenth. -/
theorem fraction_stops_le {sum : Int} (h : sum ≤ 60) : fraction sum * 2 ^ (wholeStops sum).toNat ≤ 65536 := by
  rcases le_total (wholeStops sum) 0 with below | above
  · rw [Int.toNat_of_nonpos below]
    have := fraction_le sum
    omega
  · have hscaled := fraction_scaled_le h
    have hzero : (-wholeStops sum).toNat = 0 := by omega
    rw [hzero] at hscaled
    exact hscaled

/-! ### The settled statements -/

/-- Settles O39: the floor of a tenth, the first time's one form, and its extremes by its rising. -/
theorem stepSumAndFirstTime : Obligations.StepSumAndFirstTime := by
  refine ⟨⟨fun sum => ?_, fun sum low high => ?_, fun sum neg between => ?_, by decide⟩,
    fun base sum => ⟨fun q hq => ?_, fun q hq _ => ?_⟩, fun base sum hlow hhigh low high => ⟨?_, ?_, ?_⟩,
    by decide, by decide, by decide⟩
  · obtain ⟨hle, hlt⟩ := wholeStops_floor sum
    exact ⟨hle, hlt, tenths_cast sum, tenths_le_nine sum⟩
  · exact ⟨wholeStops_mono low, wholeStops_mono high⟩
  · refine ⟨?_, wholeStops_of_neg neg between⟩
    unfold tenths
    omega
  · have hstops : wholeStops sum = q := hq
    rw [firstTime_eq, hstops]
    simp [roundHalfUp, fraction, fractionTable, tenths]
  · have hstops : wholeStops sum = -(q : Int) := hq
    rw [firstTime_eq, hstops]
    simp [roundHalfUp, fraction, fractionTable, tenths]
  · calc 3 = firstTime 200 (-60) := by decide
      _ ≤ firstTime base sum := firstTime_le_firstTime hlow low
  · calc firstTime base sum ≤ firstTime 8000 60 := firstTime_le_firstTime hhigh high
      _ = 512000 := by decide
  · calc base * fraction sum * 2 ^ (wholeStops sum).toNat
        = base * (fraction sum * 2 ^ (wholeStops sum).toNat) := Nat.mul_assoc _ _ _
      _ ≤ 8000 * 65536 := Nat.mul_le_mul hhigh (fraction_stops_le high)

/-! ### Exposure times and the line period (R64, R66) -/

theorem channelTime_bounds (second : Nat) : 40 ≤ channelTime second ∧ channelTime second ≤ 16000 := by
  unfold channelTime
  omega

theorem channelClamped_iff {second : Nat} : channelClamped second = true ↔ second < 40 ∨ 16000 < second := by
  simp [channelClamped]

theorem channelTime_of_unclamped {second : Nat} (h : channelClamped second = false) : channelTime second = second := by
  have inside : ¬(second < 40 ∨ 16000 < second) := fun outside => by simp [channelClamped_iff.mpr outside] at h
  unfold channelTime
  omega

theorem channelTime_of_lt {second : Nat} (h : second < 40) : channelTime second = 40 := by
  unfold channelTime
  omega

theorem channelTime_of_gt {second : Nat} (h : 16000 < second) : channelTime second = 16000 := by
  unfold channelTime
  omega

/-- Three exposure times give a line period in its range (R66). -/
theorem linePeriod_bounds (r g b : Nat) :
    400 ≤ linePeriod (channelTime r) (channelTime g) (channelTime b)
      ∧ linePeriod (channelTime r) (channelTime g) (channelTime b) ≤ 48032 := by
  have := channelTime_bounds r
  have := channelTime_bounds g
  have := channelTime_bounds b
  unfold linePeriod
  omega

/-- Settles O40: the clamp of each channel, the line period's range, and the first time's rising. -/
theorem exposureTimesAreBounded : Obligations.ExposureTimesAreBounded := by
  refine ⟨fun cal surface k => ?_, fun _ _ _ h => firstTime_le_firstTime le_rfl h⟩
  intro x second
  refine ⟨fun p hp => ?_, rfl, linePeriod_bounds _ _ _⟩
  have hchannel : ∃ t, p = (channelTime t, channelClamped t, t) := by
    rcases List.mem_cons.mp hp with rfl | hp
    · exact ⟨channelSecond cal surface 0 k.d k.c, rfl⟩
    rcases List.mem_cons.mp hp with rfl | hp
    · exact ⟨channelSecond cal surface 1 k.d k.m, rfl⟩
    rcases List.mem_singleton.mp hp with rfl
    exact ⟨channelSecond cal surface 2 k.d k.y, rfl⟩
  obtain ⟨t, rfl⟩ := hchannel
  exact ⟨(channelTime_bounds t).1, (channelTime_bounds t).2, channelClamped_iff, channelTime_of_unclamped,
    channelTime_of_lt, channelTime_of_gt⟩

end Sys2Proof.Machine
end

section
/-! Hold reasons: the train's bound over every step, HALT, RESUME and CLEAR_FAULT (R70 to R74, R77, R98, R105, R109;
O5, O41). -/

namespace Sys2Proof.Machine

/-- Settles O5: every command is one of the operations that keep the train's bound (`exec_safe`), whether or not the
state is sound. A unit joins the train only from the engine, where the bound left it room; TRAIN_FULL comes and goes
with the entry that fills the train and the one that leaves it. -/
theorem trainBoundIsKept : Obligations.TrainBoundIsKept := fun _ _ bounded h => (step_safe h).2 bounded

/-! ### A reason added and a reason removed (R72) -/

theorem addHold_eq (s : State) (reason : HoldReason) : s.addHold reason = { s with engine :=
    if s.engine.state = .idle then
      { s.engine with holds := s.engine.holds.put reason true, state := .held, selectionWaiting := false }
    else { s.engine with holds := s.engine.holds.put reason true } } := by
  unfold State.addHold
  dsimp only
  split
  · next idle => rw [if_pos idle]
  · next busy => rw [if_neg busy]

/-- The state with a reason taken out of the set and nothing else changed. -/
def State.withoutHold (s : State) (reason : HoldReason) : State :=
  s.mapEngine fun e => { e with holds := e.holds.put reason false }

/-- The removal of a reason empties the set of a HELD engine (R72). -/
def Empties (s : State) (reason : HoldReason) : Prop :=
  s.engine.holds.has reason = true ∧ (s.engine.holds.put reason false).isEmpty = true ∧ s.engine.state = .held

theorem removeHold_empties {s : State} {reason : HoldReason} (h : Empties s reason) :
    removeHold reason s = boundary (s.withoutHold reason) := by
  obtain ⟨has, empty, held⟩ := h
  exact if_pos (by simp [has, empty, held])

theorem removeHold_leaves {s : State} {reason : HoldReason} (h : ¬Empties s reason) :
    removeHold reason s = s.withoutHold reason := by
  refine if_neg fun hall => h ?_
  simp only [Bool.and_eq_true, beq_iff_eq] at hall
  exact ⟨hall.1.1, hall.1.2, hall.2⟩

/-! ### HALT, RESUME and CLEAR_FAULT (R73, R74, R105) -/

/-- A request row that acts at the end of its step (R13, R48). -/
theorem exec_acting {c : Instr} {h : Header} {r : Request} {d : State → Reply × State} {s t : State} {status : Status}
    {body : List Byte} (hc : exec c s = .next (serveActing h r d s)) (ok : s.accepts = true)
    (hd : d s = (.answer status body, t)) : exec c s = .next (settle (t.answered h r status body)) :=
  hc.trans (congrArg Host.Outcome.next (serveActing_answer ok hd))

/-- A request that takes a reason from the set: with the set of a HELD engine emptied a boundary follows, and otherwise
the reason alone goes (R72). The state `s1` is the one the removal meets. -/
theorem exec_removesHold {c : Instr} {h : Header} {r : Request} {d : State → Reply × State} {reason : HoldReason}
    {s s1 : State} {body : List Byte} (hc : exec c s = .next (serveActing h r d s))
    (hd : d s = okay body (removeHold reason s1)) (calm : Calm s)
    (hs : s1.queue.signal = s.queue.signal) (ht : s1.orders.trialDue = s.orders.trialDue) :
    (¬Empties s1 reason → exec c s = .next ((s1.withoutHold reason).answered h r .ok body))
      ∧ (Empties s1 reason → exec c s = .next (settle ((boundary (s1.withoutHold reason)).answered h r .ok body))) := by
  refine ⟨fun kept => ?_, fun emptied => ?_⟩
  · rw [exec_acting hc calm.accepts (hd.trans (congrArg (Prod.mk _) (removeHold_leaves kept)))]
    exact congrArg Host.Outcome.next (settle_answered (hs.trans calm.noSignal) (ht.trans calm.noTrial))
  · exact exec_acting hc calm.accepts (hd.trans (congrArg (Prod.mk _) (removeHold_empties emptied)))

/-- Settles O41. -/
theorem holdRequestsAnswer : Obligations.HoldRequestsAnswer := by
  intro h s calm e held resumed cleared
  refine ⟨rfl, rfl, fun _ => rfl, ?_, exec_removesHold (c := .resume h) (reason := .labHalt) (s1 := s) rfl rfl calm rfl rfl,
    fun counts => exec_removesHold (c := .clearFault h counts) (reason := .cutterFault)
      (s1 := s.mapTransit fun t => { t with
        consecutiveBlind := 0
        strayMarks := if counts = some true then 0 else t.strayMarks
        blindCuts := if counts = some true then 0 else t.blindCuts }) rfl rfl calm rfl rfl⟩
  refine exec_answer (c := .halt h) rfl calm.accepts ?_ calm.noSignal calm.noTrial
  show decideHalt s = _
  have hswitching : ((s.addHold .labHalt).engine.state == .switching) = decide (e.state = .switching) := by
    rw [addHold_eq]
    cases hstate : s.engine.state <;> simp [hstate]
  simp only [decideHalt, hswitching, State.addHold_current, State.addHold_holds]
  rw [addHold_eq]
  rfl

end Sys2Proof.Machine
end

section
/-! The LUT banks (R90, R91; O43). -/

namespace Sys2Proof.Machine

/-! ### Tables of levels -/

/-- The table of a channel: 0 red, 1 green, 2 blue. -/
def LutBank.table (bank : LutBank) (channel : Nat) : List Nat :=
  if channel = 0 then bank.red else if channel = 1 then bank.green else bank.blue

/-- The table of a bank's channel. -/
def Engine.lutTable (e : Engine) (bank channel : Nat) : List Nat := (if bank = 0 then e.lut0 else e.lut1).table channel

/-- The engine with a run of levels written in a bank. -/
def Engine.writeLut (bank channel start : Nat) (levels : List Nat) (e : Engine) : Engine :=
  if bank = 0 then { e with lut0 := e.lut0.write channel start levels }
  else { e with lut1 := e.lut1.write channel start levels }

theorem LutBank.table_length {bank : LutBank} {n : Nat} (red : bank.red.length = n) (green : bank.green.length = n)
    (blue : bank.blue.length = n) (channel : Nat) : (bank.table channel).length = n := by
  unfold LutBank.table
  split
  · exact red
  · split
    · exact green
    · exact blue

/-- A run written within a table is read in its place, and every other level as before. -/
theorem getD_writeLevels {table levels : List Nat} {start : Nat} (fits : start + levels.length ≤ table.length) (code : Nat) :
    (writeLevels table start levels).getD code 0 =
      if start ≤ code ∧ code < start + levels.length then levels.getD (code - start) 0 else table.getD code 0 := by
  have hstart : (table.take start).length = start := by rw [List.length_take]; omega
  simp only [writeLevels, List.getD_eq_getElem?_getD, List.append_assoc]
  rcases Nat.lt_or_ge code start with before | from_start
  · rw [List.getElem?_append_left (by omega), List.getElem?_take_of_lt before, if_neg (by omega)]
  · rw [List.getElem?_append_right (by omega), hstart]
    rcases Nat.lt_or_ge code (start + levels.length) with within | after
    · rw [List.getElem?_append_left (by omega), if_pos ⟨from_start, within⟩]
    · rw [List.getElem?_append_right (by omega), List.getElem?_drop, if_neg (by omega)]
      congr 2
      omega

theorem LutBank.write_table (bank : LutBank) {channel c : Nat} (start : Nat) (levels : List Nat) (hchannel : channel ≤ 2)
    (hc : c ≤ 2) : (bank.write channel start levels).table c =
      if c = channel then writeLevels (bank.table c) start levels else bank.table c := by
  interval_cases channel <;> interval_cases c <;> rfl

theorem Engine.writeLut_lutTable (e : Engine) {bank channel b c : Nat} (start : Nat) (levels : List Nat)
    (hbank : bank ≤ 1) (hchannel : channel ≤ 2) (hb : b ≤ 1) (hc : c ≤ 2) :
    (e.writeLut bank channel start levels).lutTable b c =
      if b = bank ∧ c = channel then writeLevels (e.lutTable b c) start levels else e.lutTable b c := by
  have hwritten : ∀ lut : LutBank, (lut.write channel start levels).table c =
      if c = channel then writeLevels (lut.table c) start levels else lut.table c := fun lut =>
    lut.write_table start levels hchannel hc
  interval_cases bank <;> interval_cases b
  · simpa [writeLut, lutTable] using hwritten e.lut0
  · rfl
  · rfl
  · simpa [writeLut, lutTable] using hwritten e.lut1

/-! ### LUT_WRITE and LUT_SWITCH (R91) -/

theorem lutWriteBad_iff (bank channel start : Nat) (levels : List Nat) :
    lutWriteBad bank channel start levels = true ↔ 1 < bank ∨ 2 < channel ∨ levels.length = 0 ∨ 64 < levels.length
      ∨ 256 < start + levels.length ∨ ∃ level ∈ levels, 1023 < level := by
  simp [lutWriteBad, or_assoc]

/-- Settles O43. -/
theorem lutRequestsWriteTheInactiveBank : Obligations.LutRequestsWriteTheInactiveBank := by
  intro h s ok
  refine ⟨congrArg Host.Outcome.next (serve_answer ok rfl), fun bank channel start levels => ?_⟩
  intro r bad
  have hexec : ∀ {t : State} {status : Status}, decideLutWrite bank channel start levels s = (.answer status [], t) →
      exec (.lutWrite h bank channel start levels) s = .next (t.answered h r status []) := fun hd =>
    congrArg Host.Outcome.next (serve_answer ok hd)
  have hbad : lutWriteBad bank channel start levels = true ↔ bad := lutWriteBad_iff ..
  refine ⟨fun isBad => hexec (if_pos (hbad.mpr isBad)), fun good active => ?_, fun good inactive lengths => ?_⟩
  · exact hexec ((if_neg (mt hbad.mp good)).trans (if_pos active))
  · refine ⟨s.engine.writeLut bank channel start levels,
      hexec ((if_neg (mt hbad.mp good)).trans (if_neg inactive)), ?_, fun b c code hb hc hcode => ?_⟩
    · unfold Engine.writeLut
      split <;> rfl
    · simp only [bad, not_or, not_lt] at good
      obtain ⟨hbank, hchannel, -, -, hend, -⟩ := good
      obtain ⟨red0, green0, blue0, red1, green1, blue1⟩ := lengths
      have hlength : (s.engine.lutTable b c).length = 256 := by
        unfold Engine.lutTable
        split
        · exact LutBank.table_length red0 green0 blue0 c
        · exact LutBank.table_length red1 green1 blue1 c
      show ((s.engine.writeLut bank channel start levels).lutTable b c).getD code 0 = if _ then _ else
        (s.engine.lutTable b c).getD code 0
      rw [Engine.writeLut_lutTable _ _ _ hbank hchannel hb hc]
      by_cases here : b = bank ∧ c = channel
      · rw [if_pos here, getD_writeLevels (by omega)]
        exact if_congr (by simp [here]) rfl rfl
      · rw [if_neg here, if_neg fun hall => here ⟨hall.1, hall.2.1⟩]

end Sys2Proof.Machine
end

section
/-! The magazines: SELECT_MAGAZINE, LOAD_MAGAZINE and the magazine sensors (R80 to R82, R86; O42). -/

namespace Sys2Proof.Machine

/-! ### An event of a running part (R13, R48) -/

section
variable {c : Instr} {event : State → State} {s t : State}

/-- An event of a running part has its effect, and then the end of the step. -/
theorem exec_event (hc : exec c s = .next (whileOnActing event s)) (running : Running s) (he : event s = t) :
    exec c s = .next (settle t) :=
  hc.trans (congrArg Host.Outcome.next ((whileOnActing_on running.power).trans (congrArg settle he)))

/-- An event that leaves nothing owed ends with its effect. -/
theorem exec_event_calm (hc : exec c s = .next (whileOnActing event s)) (running : Running s) (he : event s = t)
    (hs : t.queue.signal = s.queue.signal) (ht : t.orders.trialDue = s.orders.trialDue) : exec c s = .next t :=
  hc.trans (congrArg Host.Outcome.next (whileOnActing_calm running.power he (hs.trans running.noSignal)
    (ht.trans running.noTrial)))

/-- An event that cannot arise in the present state has no effect (log entry 1). -/
theorem exec_event_none (hc : exec c s = .next (whileOnActing event s)) (running : Running s) (same : event s = s) :
    exec c s = .next s := exec_event_calm hc running same rfl rfl

end

/-! ### SELECT_MAGAZINE and LOAD_MAGAZINE (R82, R86) -/

theorem loadRefused_iff (m : Magazine) (e : Engine) :
    loadRefused m e = true ↔ (e.mag m).present = false ∨ (e.mag m).paperEnd = true ∨ e.state = .switching
      ∨ (m = e.active ∧ e.state = .exposing) := by
  simp [loadRefused, or_assoc]

/-- The magazine that a code names, A by 0 and B by 1. -/
theorem magazineOfCode_le {code : Nat} (h : code ≤ 1) : magazineOfCode code = some (if code = 0 then .a else .b) := by
  interval_cases code <;> rfl

theorem magazineOfCode_gt {code : Nat} (h : 1 < code) : magazineOfCode code = none := by
  obtain ⟨k, rfl⟩ := Nat.exists_eq_add_of_lt h
  rw [show 1 + k + 1 = k + 2 by omega]
  rfl

theorem mag_ofCode (e : Engine) (code : Nat) :
    e.mag (if code = 0 then .a else .b) = if code = 0 then e.magA else e.magB := by
  split <;> rfl

theorem setMag_ofCode (s : State) (code : Nat) (r : MagazineRecord) :
    s.setMag (if code = 0 then .a else .b) r = { s with
      engine := if code = 0 then { s.engine with magA := r } else { s.engine with magB := r }
      queue := { s.queue with signal := true } } := by
  split <;> rfl

theorem decideLoadMagazine_badValue {code metres : Nat} (s : State) (h : 1 < code ∨ metres = 0 ∨ 350 < metres) :
    decideLoadMagazine code metres s = refuse .badValue s := by
  unfold decideLoadMagazine
  rcases Nat.lt_or_ge 1 code with out | within
  · rw [magazineOfCode_gt out]
  · rw [magazineOfCode_le within]
    exact if_pos (h.resolve_left (by omega))

theorem decideLoadMagazine_named {code metres : Nat} (s : State) (hcode : code ≤ 1) (hpos : 1 ≤ metres)
    (hmax : metres ≤ 350) : decideLoadMagazine code metres s =
      if loadRefused (if code = 0 then .a else .b) s.engine = true then refuse .wrongState s
      else okay (item32 (metres * 20000)) (s.setMag (if code = 0 then .a else .b)
        { s.engine.mag (if code = 0 then .a else .b) with remaining := metres * 20000 }) := by
  unfold decideLoadMagazine
  rw [magazineOfCode_le hcode]
  exact if_neg (by omega)

/-! ### The magazine sensors (R80, R81) -/

/-- The magazine with the record given, and the queue signalled (R80). -/
theorem setMag_match (s : State) (m : Magazine) (r : MagazineRecord) : s.setMag m r = { s with
    engine := match m with
      | .a => { s.engine with magA := r }
      | .b => { s.engine with magB := r }
    queue := { s.queue with signal := true } } := by
  cases m <;> rfl

theorem magazineCode_eq (m : Magazine) : magazineCode m = if m = .a then 0 else 1 := by cases m <;> rfl

/-- A sensed magazine's record (R80). -/
theorem senseMagazine_present {width surface : Nat} (atEnd : Bool) (remaining : Nat) (hwidth : width ≤ 7)
    (hsurface : surface ≤ 3) :
    senseMagazine { present := true, widthCode := width, surfaceCode := surface, paperEnd := atEnd } remaining =
      { present := true, surface := some surface, remaining, paperEnd := atEnd
        width := [none, some 89, some 102, some 127, some 152, some 203, some 254, some 305].getD width none } := by
  unfold senseMagazine
  have hw := widthOfCode_eq width
  rw [Nat.mod_eq_of_lt (by omega : width < 8)] at hw
  have hw8 : width % 8 = width := Nat.mod_eq_of_lt (by omega)
  have hs : surface % 4 = surface := Nat.mod_eq_of_lt (by omega)
  simp only [if_pos, hw8, hw, hs]

/-- A paper-out event that leaves the record `gone` (R81). -/
theorem exec_paperOut {c : Instr} {event : State → State} {s : State} {m : Magazine} {r gone : MagazineRecord}
    (hc : exec c s = .next (whileOnActing event s)) (running : Running s) (he : event s = paperOut m r s)
    (hr : { r with remaining := 0 } = gone) :
    let s1 := (s.setMag m gone).raise .paperOut (if m = .a then 0 else 1)
    exec c s = .next (settle (if m = s.engine.active ∧ s.engine.state = .exposing then engineSpoil s1 else s1)) := by
  subst hr
  rw [exec_event hc running he, paperOut, magazineCode_eq]

/-- Settles O42. -/
theorem magazinesAreChangedAndSensed : Obligations.MagazinesAreChangedAndSensed := by
  refine ⟨fun h s calm => ⟨fun switching => ?_, fun steady => ?_, fun code metres => ?_⟩, fun m s running => ?_⟩
  · exact exec_unchanged (c := .selectMagazine h) rfl calm (if_pos switching)
  · exact exec_acting (c := .selectMagazine h) rfl calm.accepts (if_neg steady)
  · intro r
    refine ⟨fun bad => exec_unchanged (c := .loadMagazine h code metres) rfl calm (decideLoadMagazine_badValue s bad),
      fun hcode hpos hmax => ?_⟩
    intro m record refused
    have hrefused : loadRefused m s.engine = true ↔ refused := by
      rw [loadRefused_iff, show s.engine.mag m = record from mag_ofCode ..]
    have hdecision := decideLoadMagazine_named s hcode hpos hmax
    rw [setMag_ofCode, mag_ofCode] at hdecision
    refine ⟨fun isRefused => ?_, fun taken => ?_⟩
    · exact exec_unchanged (c := .loadMagazine h code metres) rfl calm (hdecision.trans (if_pos (hrefused.mpr isRefused)))
    · exact exec_acting (c := .loadMagazine h code metres) rfl calm.accepts
        (hdecision.trans (if_neg (mt hrefused.mp taken)))
  · intro record put out
    have hput : ∀ r, s.setMag m r = put r := setMag_match s m
    simp only [← hput, out]
    have hnot : ∀ {b : Bool}, b = false → ¬b = true := Bool.eq_false_iff.mp
    refine ⟨fun width surface atEnd hwidth hsurface => ⟨fun present => ?_, fun absent => ?_⟩, fun absent => ?_,
      fun present => ?_, fun ended => ?_, fun loaded => ?_, fun clear => ?_, fun present ended => ?_⟩
    · exact exec_event_none (c := .magazineInserted m width surface atEnd) rfl running (if_pos present)
    · rw [← senseMagazine_present atEnd record.remaining hwidth hsurface]
      exact exec_event (c := .magazineInserted m width surface atEnd) rfl running (if_neg (hnot absent))
    · exact exec_event_none (c := .magazineRemoved m) rfl running (if_neg (hnot absent))
    · exact exec_paperOut (c := .magazineRemoved m) rfl running (if_pos present) rfl
    · exact exec_event_none (c := .paperEnd m) rfl running (if_pos ended)
    · exact exec_paperOut (c := .paperEnd m) rfl running (if_neg (hnot loaded)) rfl
    · refine exec_event_none (c := .paperEndClear m) rfl running (if_neg ?_)
      rw [Bool.and_eq_true]
      exact fun h => clear.elim (hnot · h.1) (hnot · h.2)
    · exact exec_event (c := .paperEndClear m) rfl running (if_pos (Bool.and_eq_true_iff.mpr ⟨present, ended⟩))

end Sys2Proof.Machine
end

section
/-! What a spoil report leaves (R38, R39, R79; for O46, O47). -/

namespace Sys2Proof.Machine

/-! ### The unit's record, with any wrong bits in its order's slot (R38, R177) -/

section
variable {s : State} {id i : Nat} {u : PrintUnit}

theorem readWords_pool (i : Nat) (words : List Upset) (f : AccessFinding) (s : State) :
    (readWords i words (f, s)).2.queue.pool = s.queue.pool := by
  have hcount : ∀ t : State, (t.countCorrection i).queue = t.queue := fun t => by
    unfold State.countCorrection
    split
    · dsimp only
      split <;> rfl
    · rfl
  induction words generalizing f s with
  | nil => rfl
  | cons w rest ih =>
    have hdrawn : (if decide (3 ≤ w.bits) then s.drawn else s).queue = s.queue := by split <;> rfl
    unfold readWords
    dsimp only
    split
    · rw [ih, hdrawn]
    · rw [ih, hcount, hdrawn]
    · rw [ih, hdrawn]

theorem leaveHeldList_pool (s : State) (i : Nat) : (s.leaveHeldList i).queue.pool = s.queue.pool := by
  unfold State.leaveHeldList
  split <;> rfl

theorem garble_pool (s : State) (i : Nat) (misread : List RecordWord) (o : Order) :
    (s.garble i misread o).2.queue.pool = s.queue.pool := by
  cases misread <;> rfl

/-- An access to a slot leaves the unit records alone. -/
theorem readSlot_pool (i : Nat) (s : State) : (readSlot i s).queue.pool = s.queue.pool := by
  unfold readSlot
  split
  · rfl
  · next o _ =>
    split
    · rfl
    · dsimp only
      split
      · rfl
      · generalize wrongWords _ = words
        have hgarbled := (garble_pool ((readWords i words (.clean, s)).2.dropUpsets fun u => u.slot == i) i
          (readWords i words (.clean, s)).1.misread o).trans (readWords_pool i words .clean s)
        split
        · exact (leaveHeldList_pool _ i).trans hgarbled
        · exact hgarbled

/-- After its spoil report the record of a unit is marked SPOILED and otherwise as it was, whatever the access to its
order's slot finds. -/
theorem spoilReport_unit? (hu : s.unit? id = some u) : (spoilReport id s).unit? id = some { u with spoiled := true } := by
  cases fresh : u.spoiled with
  | true =>
    have hreport : spoilReport id s = s := by simp only [spoilReport, hu, fresh, if_true]
    rw [hreport, hu, ← fresh]
  | false =>
    have hmark : (s.setUnit id { u with spoiled := true }).unit? id = some { u with spoiled := true } :=
      recordOf_set_self (recordOf_lt hu) _
    have hread : ∀ i, (readSlot i (s.setUnit id { u with spoiled := true })).unit? id = some { u with spoiled := true } :=
      fun i => by rw [unit?_eq, readSlot_pool]; exact hmark
    simp only [spoilReport, hu, fresh, Bool.false_eq_true, if_false]
    split
    · rw [stripSpoiled_unit?, hmark]
    · split
      · exact hmark
      · split
        · exact hmark
        · split
          · exact hread _
          · split
            · split
              · exact spoilReprinted_unit? (hread _)
              · rw [spoilMissing_unit?, hread]
            · exact hread _

end

/-! ### The rest of the state, on clean storage -/

/-- What a spoil report from `r` to `s` leaves alone: all but the queue, the slots, the strip and the notices, and of
the notices every kind but ORDER_FAULT. -/
structure SpoilFrame (r s : State) : Prop where
  frame   : s = { r with
    queue := s.queue, notices := s.notices
    orders := { r.orders with slots := s.orders.slots }
    cal := { r.cal with strip := s.cal.strip } }
  notices : ∀ k, k ≠ NoticeKind.orderFault.index → s.notices.kinds[k]? = r.notices.kinds[k]?

theorem SpoilFrame.refl (s : State) : SpoilFrame s s := ⟨rfl, fun _ _ => rfl⟩

theorem SpoilFrame.trans {r s t : State} (h : SpoilFrame r s) (k : SpoilFrame s t) : SpoilFrame r t :=
  ⟨k.frame.trans (by rw [h.frame]), fun j hj => (k.notices j hj).trans (h.notices j hj)⟩

theorem SpoilFrame.markSpoiled (s : State) (id : Nat) (u : PrintUnit) : SpoilFrame s (s.markSpoiled id u) :=
  ⟨rfl, fun _ _ => rfl⟩

theorem SpoilFrame.stripSpoiled (s : State) (id : Nat) : SpoilFrame s (stripSpoiled id s) := by
  unfold Sys2Proof.Machine.stripSpoiled
  split
  · split
    · exact ⟨rfl, fun _ _ => rfl⟩
    · exact .refl s
  · exact .refl s

theorem SpoilFrame.spoilReprinted (s : State) (i : Nat) (o : Order) (u : PrintUnit) :
    SpoilFrame s (spoilReprinted i o u s) := by
  simp only [Sys2Proof.Machine.spoilReprinted, State.makeUnit, joinHead_eq]
  cases s.queue.pool.findIdx? Option.isNone <;> exact ⟨rfl, fun _ _ => rfl⟩

theorem SpoilFrame.spoilMissing (s : State) (i : Nat) (o : Order) (u : PrintUnit) :
    SpoilFrame s (spoilMissing i o u s) := by
  have hraise : ∀ {t : State}, SpoilFrame s t → SpoilFrame s (t.raise .orderFault o.number) := fun h =>
    h.trans ⟨rfl, fun _ hk => List.getElem?_modify_ne _ _ (Ne.symm hk)⟩
  unfold Sys2Proof.Machine.spoilMissing
  dsimp only
  split <;> exact hraise ⟨rfl, fun _ _ => rfl⟩

theorem SpoilFrame.spoilReport {s : State} {id : Nat} {u : PrintUnit} (clean : CleanStorage s) (hu : s.unit? id = some u)
    (fresh : u.spoiled = false) : SpoilFrame s (spoilReport id s) := by
  have hmark := SpoilFrame.markSpoiled s id u
  by_cases strip : u.kind = .strip
  · rw [spoilReport_strip hu fresh strip]
    exact hmark.trans (.stripSpoiled ..)
  · by_cases hnone : u.void = true ∨ ∀ o, s.soundOrder u = some o → o.state.spoilsCount = false
    · rw [spoilReport_uncounted clean hu fresh strip hnone]
      exact hmark
    · simp only [not_or, not_forall, Bool.not_eq_true, Bool.not_eq_false] at hnone
      obtain ⟨valid, o, ho, counts⟩ := hnone
      obtain ⟨i, hslot, -⟩ := soundOrder_some.mp ho
      rw [spoilReport_counted clean hu fresh strip valid hslot ho counts]
      split
      · exact hmark.trans (.spoilReprinted ..)
      · exact hmark.trans (.spoilMissing ..)

end Sys2Proof.Machine
end

section
/-! The timers of the engine, the lamp supply and the image port (R79, R85, R87 to R89, R92; O47, O48). -/

namespace Sys2Proof.Machine

/-! ### Deliveries (R87, R88) -/

theorem deliveryAccepted_iff (unit line : Nat) (pixels : List Pixel) (s : State) :
    deliveryAccepted unit line pixels s = true ↔ s.engine.current = some unit
      ∧ (s.engine.buffer1 = .requested line ∨ s.engine.buffer2 = .requested line)
      ∧ ∃ u, s.unit? unit = some u ∧ pixels.length = u.width.getD 0 * 20 := by
  cases hcurrent : s.engine.current with
  | none => simp [deliveryAccepted, State.inEngine, hcurrent]
  | some id =>
    by_cases hid : id = unit
    · subst hid
      cases hu : s.unit? id <;> simp [deliveryAccepted, State.inEngine, hcurrent, hu]
    · cases hu : s.unit? id <;> simp [deliveryAccepted, State.inEngine, hcurrent, hu, hid]

/-- A line outstanding in some buffer fills the first that requests it (R88). -/
theorem Engine.fill_outstanding {e : Engine} {line : Nat} (pixels : List Pixel)
    (h : e.buffer1 = .requested line ∨ e.buffer2 = .requested line) :
    e.fill line pixels = if e.buffer1 = .requested line then { e with buffer1 := .complete line pixels }
      else { e with buffer2 := .complete line pixels } := by
  unfold Engine.fill
  split
  · rfl
  · next other => rw [if_pos (h.resolve_left other)]

/-- Settles O48. -/
theorem deliveriesFillTheirBuffer : Obligations.DeliveriesFillTheirBuffer := by
  intro unit line pixels s on e outstanding accepted
  have hexec : exec (.imageDelivery unit line pixels) s = .next (takeDelivery unit line pixels s) :=
    congrArg Host.Outcome.next (if_pos on)
  have haccepted : deliveryAccepted unit line pixels s = true ↔ accepted := deliveryAccepted_iff ..
  refine ⟨fun refused => ?_, fun taken => ?_⟩
  · rw [hexec, takeDelivery, if_neg (mt haccepted.mp refused)]
    rfl
  · intro filled
    have hfill : e.fill line pixels = filled := Engine.fill_outstanding pixels taken.2.1
    have htimer : (e.fill line pixels).firstLineTimer = e.firstLineTimer := by
      unfold Engine.fill
      split
      · rfl
      · split <;> rfl
    have htake : takeDelivery unit line pixels s =
        if (e.firstLineTimer && line == 0) = true then
          beginLine .image 0 { s with engine := { filled with firstLineTimer := false } }
        else { s with engine := filled } := by
      rw [takeDelivery, if_pos (haccepted.mpr taken), ← hfill, ← htimer]
      rfl
    refine ⟨fun plain => ?_, fun waiting first => ?_⟩
    · rw [hexec, htake, if_neg ?_]
      rw [Bool.and_eq_true, beq_iff_eq]
      exact fun both => plain.elim (fun h => by rw [h] at both; cases both.1) fun h => h both.2
    · rw [hexec, htake, if_pos (by simp [waiting, first])]

/-! ### The first-line timer (R79, R87, R89) -/

/-- The expiry spoils the unit and begins line 0 at border tone. -/
theorem firstLineExpired_eq {s : State} {id : Nat} {u : PrintUnit} (waiting : s.engine.firstLineTimer = true)
    (current : s.engine.current = some id) (hu : s.unit? id = some u) (fresh : u.spoiled = false) :
    firstLineExpired s =
      ({ spoilReport id s with engine := s.engine.dipping } : State).raise .feedUnderflow (u.number.getD 0) := by
  have hin := inEngine_eq current hu
  have hengine : (spoilReport id s).engine = s.engine := (Leaves.refl s).after_spoilReport.engine
  simp only [firstLineExpired, waiting, if_true, hin, engineSpoil_fresh hin fresh, State.mapEngine, Engine.dipping, hengine]

/-! ### The lamp supply (R92) -/

theorem inLitPhase_iff (e : Engine) : e.inLitPhase = true ↔
    e.phase = some .topBorder ∨ e.phase = some .image ∨ e.phase = some .bottomBorder := by
  simp [Engine.inLitPhase, or_assoc]

/-- The state in which the lamp timer has expired and LAMP_LOW has been added. -/
def State.lampLowAdded (s : State) : State := (s.mapEngine fun e => { e with lampTimer := false }).addHold .lampLow

section
variable {s : State} {id : Nat} {u : PrintUnit}

theorem lampLowAdded_inLitPhase (s : State) : s.lampLowAdded.engine.inLitPhase = s.engine.inLitPhase := by
  unfold State.lampLowAdded
  rw [addHold_eq]
  split <;> rfl

theorem lampLowAdded_inEngine (current : s.engine.current = some id) (hu : s.unit? id = some u) :
    s.lampLowAdded.inEngine = some (id, u) :=
  inEngine_eq ((State.addHold_current _ .lampLow).trans current) hu

theorem lampExpired_unlit (runs : s.engine.lampTimer = true) (unlit : ¬s.engine.inLitPhase = true) :
    lampExpired s = s.lampLowAdded.raise .lampDip 0 := by
  rw [← lampLowAdded_inLitPhase] at unlit
  exact (if_pos runs).trans (if_neg unlit)

theorem lampExpired_lit (runs : s.engine.lampTimer = true) (lit : s.engine.inLitPhase = true)
    (current : s.engine.current = some id) (hu : s.unit? id = some u) :
    lampExpired s = (engineSpoil s.lampLowAdded).raise .lampDip (if u.spoiled = true then 0 else u.number.getD 0) := by
  rw [← lampLowAdded_inLitPhase] at lit
  have hin := lampLowAdded_inEngine current hu
  unfold State.lampLowAdded at lit hin ⊢
  simp only [lampExpired, runs, lit, hin, if_true]

end

/-- Settles O47. -/
theorem timersAndLampSupply : Obligations.TimersAndLampSupply := by
  refine ⟨fun s running => ⟨fun stopped => ?_, fun time runs => ?_, fun begun => ?_, fun id u waiting exposing current hu fresh
      clean => ?_⟩, fun s running => ?_⟩
  · exact exec_event_none (c := .switchTimerExpiry) rfl running (if_neg (by simp [stopped]))
  · exact exec_event (c := .switchTimerExpiry) rfl running (if_pos (by simp [runs]))
  · exact exec_event_none (c := .firstLineTimeout) rfl running (if_neg (Bool.eq_false_iff.mp begun))
  · have hspoil := SpoilFrame.spoilReport clean hu fresh
    have hrecord := spoilReport_unit? hu
    have hexec := exec_event (c := .firstLineTimeout) rfl running (firstLineExpired_eq waiting current hu fresh)
    generalize spoilReport id s = spoilt at hspoil hrecord hexec
    have htrial : spoilt.orders.trialDue = false := by rw [hspoil.frame]; exact running.noTrial
    rw [settle_busy (s := ({ spoilt with engine := s.engine.dipping } : State).raise _ _) htrial
      (by show s.engine.state ≠ _; rw [exposing]; decide)] at hexec
    refine ⟨_, hexec, hrecord, rfl, ?_, ?_⟩
    · show (spoilt.notices.kinds.modify 5 _)[5]? = _
      rw [List.getElem?_modify_eq, hspoil.notices 5 (by decide)]
      rfl
    · exact congrArg (fun t : State => { t.raise .feedUnderflow (u.number.getD 0) with
        engine := s.engine.dipping, queue := { t.queue with signal := false } }) hspoil.frame
  · intro e
    refine ⟨?_, fun up => ?_, fun low => ?_, fun stopped => ?_, fun runs => ?_⟩
    · exact congrArg Host.Outcome.next (if_pos running.power)
    · exact exec_event_none (c := .lampSupplyRecovery) rfl running (if_neg (Bool.eq_false_iff.mp up))
    · intro s1 emptied
      have hrecover : lampRecovers s =
          removeHold .lampLow (s.mapEngine fun e => { e with lampIsLow := false, lampTimer := false }) := if_pos low
      refine ⟨fun kept => ?_, fun empties => ?_⟩
      · exact exec_event_calm (c := .lampSupplyRecovery) rfl running (hrecover.trans (removeHold_leaves kept)) rfl rfl
      · exact exec_event (c := .lampSupplyRecovery) rfl running (hrecover.trans (removeHold_empties empties))
    · exact exec_event_none (c := .lampTimerExpiry) rfl running (if_neg (Bool.eq_false_iff.mp stopped))
    · intro holds s1 lit
      have hs1 : s.lampLowAdded = s1 := addHold_eq ..
      have hlit : s.engine.inLitPhase = true ↔ lit := inLitPhase_iff _
      rw [← hs1]
      refine ⟨fun unlit => ?_, fun id u inLit current hu => ?_⟩
      · exact exec_event_calm (c := .lampTimerExpiry) rfl running (lampExpired_unlit runs (mt hlit.mp unlit)) rfl rfl
      · exact exec_event (c := .lampTimerExpiry) rfl running (lampExpired_lit runs (hlit.mpr inLit) current hu)

end Sys2Proof.Machine
end

section
/-! The end of a line period: the next line, the next phase, an underflow and the hand-over (R76, R77, R79, R87, R89,
R92, R99, R143, R144; O46). -/

namespace Sys2Proof.Machine

/-! ### The next line of IMAGE (R76, R87, R89) -/

/-- The state with line `k` begun and nothing of it exposed yet. -/
def State.atLine (s : State) (k : Nat) : State := s.mapEngine fun e => { e with line := k }

section
variable {e : Engine} {k : Nat} {pixels : List Pixel}

theorem completeLine_first (h : e.buffer1 = .complete k pixels) : e.completeLine k = some (true, pixels) := by
  simp [Engine.completeLine, h]

theorem completeLine_second (first : ∀ p, e.buffer1 ≠ .complete k p) (h : e.buffer2 = .complete k pixels) :
    e.completeLine k = some (false, pixels) := by
  unfold Engine.completeLine
  cases hb : e.buffer1 with
  | complete l p =>
    have hl : l ≠ k := by rintro rfl; exact first p hb
    simp [h, hl]
  | empty | requested => simp [h]

theorem completeLine_none (first : ∀ p, e.buffer1 ≠ .complete k p) (second : ∀ p, e.buffer2 ≠ .complete k p) :
    e.completeLine k = none := by
  have hne : ∀ {b : LineBuffer} {l : Nat} {p : List Pixel}, (∀ p, b ≠ .complete k p) → b = .complete l p → l ≠ k := by
    rintro b l p hb rfl rfl
    exact hb p rfl
  unfold Engine.completeLine
  cases hb1 : e.buffer1 with
  | complete l p =>
    have hl := hne first hb1
    cases hb2 : e.buffer2 with
    | complete l2 p2 => simp [hl, hne second hb2]
    | empty | requested => simp [hl]
  | empty | requested =>
    cases hb2 : e.buffer2 with
    | complete l2 p2 => simp [hne second hb2]
    | empty | requested => rfl

end

section
variable {s : State} {id k : Nat} {u : PrintUnit}

theorem beginLine_plain (s : State) (k : Nat) {phase : Phase} (plain : phase ≠ .image) :
    beginLine phase k s = (s.atLine k).mapEngine fun e => { e with head := match phase with
      | .lead => .unlit
      | .mark => markTone
      | _ => borderTone } := by
  cases phase with
  | image => exact absurd rfl plain
  | lead | topBorder | bottomBorder | mark => rfl

theorem beginLine_image (current : s.engine.current = some id) (hu : s.unit? id = some u) :
    beginLine .image k s =
      if u.spoiled = true then (s.atLine k).mapEngine fun e => { e with head := borderTone }
      else if u.kind = .strip then (s.atLine k).mapEngine fun e => { e with
        head := if k < 400 then .unlit else .uniform (e.activeLut.convert { r := 128, g := 128, b := 128 }) }
      else beginImageLine k u (s.atLine k) := by
  have hin : (s.mapEngine fun e => { e with line := k }).inEngine = some (id, u) := inEngine_eq current hu
  simp only [beginLine, hin]
  split
  · rfl
  · split
    · split <;> rfl
    · rfl

/-- The buffer that an image line has left, with the line two ahead requested if it lies within IMAGE (R87). -/
def aheadOf (k : Nat) (u : PrintUnit) : LineBuffer := if k + 2 < u.imageLines then .requested (k + 2) else .empty

theorem beginImageLine_first {pixels : List Pixel} (h : s.engine.buffer1 = .complete k pixels) :
    beginImageLine k u s = s.mapEngine fun e => { e with
      head := .image (pixels.map e.activeLut.convert), buffer1 := aheadOf k u } := by
  simp only [beginImageLine, completeLine_first h]
  rfl

theorem beginImageLine_second {pixels : List Pixel} (first : ∀ p, s.engine.buffer1 ≠ .complete k p)
    (h : s.engine.buffer2 = .complete k pixels) :
    beginImageLine k u s = s.mapEngine fun e => { e with
      head := .image (pixels.map e.activeLut.convert), buffer2 := aheadOf k u } := by
  simp only [beginImageLine, completeLine_second first h]
  rfl

/-- The state of a unit spoiled in the engine, its image requests forgotten and its line at border tone (R79). -/
def State.spoilt (s : State) (id : Nat) : State :=
  { spoilReport id s with engine := { (spoilReport id s).engine with
      buffer1 := .empty, buffer2 := .empty, head := borderTone } }

theorem spoilReport_engine (s : State) (id : Nat) : (spoilReport id s).engine = s.engine :=
  (Leaves.refl s).after_spoilReport.engine

/-- A line complete in neither buffer spoils the unit and is exposed at border tone (R89). -/
theorem beginImageLine_underflow (current : s.engine.current = some id) (hu : s.unit? id = some u)
    (fresh : u.spoiled = false) (begun : s.engine.firstLineTimer = false) (first : ∀ p, s.engine.buffer1 ≠ .complete k p)
    (second : ∀ p, s.engine.buffer2 ≠ .complete k p) :
    beginImageLine k u s = (s.spoilt id).raise .feedUnderflow (u.number.getD 0) := by
  have hstill : (spoilReport id s).engine.firstLineTimer = false := by rw [spoilReport_engine, begun]
  simp only [beginImageLine, completeLine_none first second, engineSpoil_fresh (inEngine_eq current hu) fresh,
    State.mapEngine, State.spoilt, State.raise]
  rw [hstill]

/-! ### The next phase (R76, R87, R92) -/

/-- The next phase with lines after a phase, or after the unit start (R76). -/
theorem nextPhase_split {phase : Option Phase} {passed rest : List Phase} {next : Phase}
    (hsplit : phasesAfter phase = passed ++ next :: rest) (hpassed : ∀ p ∈ passed, u.phaseLines p = 0)
    (hnext : u.phaseLines next ≠ 0) : u.nextPhase phase = some next := by
  unfold PrintUnit.nextPhase
  rw [hsplit, List.find?_append, List.find?_eq_none.mpr fun p hp => by simp [hpassed p hp]]
  simp [hnext]

/-- A phase's first line, whatever the engine's place before it. -/
theorem entering_at (u : PrintUnit) (next : Phase) (e : Engine) (advances : Nat) :
    Engine.entering u next { e with advances, phase := some next, line := 0 } =
      { Engine.entering u next e with advances, phase := some next, line := 0 } := by
  cases next with
  | lead | topBorder | bottomBorder | mark => rfl
  | image =>
    unfold Engine.entering
    dsimp only
    split
    · rfl
    · split <;> rfl

/-- The first lit phase under LAMP_LOW, with any wrong bits in storage (R92). -/
theorem enterPhase_spoils {next : Phase} (current : s.engine.current = some id) (hu : s.unit? id = some u)
    (begun : s.engine.firstLineTimer = false) (dips : Dips s u next) :
    enterPhase next s = (s.atPhase next).spoilt id := by
  obtain ⟨hlit, hlamp, fresh⟩ := dips
  have hengine := spoilReport_engine (s.atPhase next) id
  have hstill : (spoilReport id (s.atPhase next)).engine.firstLineTimer = false := by rw [hengine]; exact begun
  have hin := inEngine_eq (s := s.atPhase next) current hu
  rw [enterPhase_eq hin, if_pos (Bool.and_eq_true_iff.mpr ⟨(firstLit_iff u next).mpr hlit, hlamp⟩),
    engineSpoil_fresh hin fresh]
  generalize ht : (spoilReport id (s.atPhase next)).mapEngine _ = t
  have htin : t.inEngine = some (id, { u with spoiled := true }) := by
    rw [← ht]
    exact inEngine_eq (by show (spoilReport id (s.atPhase next)).engine.current = _; rw [hengine]; exact current)
      (spoilReport_unit? (s := s.atPhase next) hu)
  have htline : t.engine.line = 0 := by
    rw [← ht]
    show (spoilReport id (s.atPhase next)).engine.line = 0
    rw [hengine]
    rfl
  rw [enterSpoiled, htin, if_neg (by simp), beginLine_first htin htline fun _ => .inl rfl, ← ht]
  simp only [State.mapEngine, State.spoilt, hstill]
  rcases hlit with rfl | ⟨rfl, -⟩ <;> rfl

end

end Sys2Proof.Machine
end

section
/-! The hand-over and the end of a line period (R76, R77, R99, R143, R144; O46). -/

namespace Sys2Proof.Machine

/-! ### A print counted on its surface (R143, R144) -/

/-- A unit at its last line is counted on its surface: an unspoiled print that is not VOID, on a surface not due. -/
abbrev Counts (s : State) (u : PrintUnit) : Prop :=
  ¬(u.kind = .strip ∨ u.spoiled = true ∨ u.void = true ∨ (s.surface u.surface).due = true)

/-- The surface's record with one print more, its due comparison still to be made. -/
def State.countedSurface (s : State) (k : Nat) : SurfaceCal :=
  { s.surface k with counter := min ((s.surface k).counter + 1) 4000, checkWaiting := true }

/-- The state after the report of an exposed unit (R77): a strip and a spoiled unit are not counted. -/
def State.exposureCounted (s : State) (u : PrintUnit) : State :=
  if u.kind = .strip ∨ u.spoiled = true then s else countPrint u.surface u.void s

/-- The due comparison after the count finds the surface due (R144). -/
abbrev FoundDue (s : State) (u : PrintUnit) : Prop :=
  Counts s u ∧ s.store.calibration.bad = false ∧ s.store.calibration.value (44 + u.surface) ≠ 0
    ∧ s.store.calibration.value (44 + u.surface) ≤ min ((s.surface u.surface).counter + 1) 4000

section
variable {s : State} {u : PrintUnit}

theorem exposureCounted_none (h : ¬Counts s u) : s.exposureCounted u = s := by
  unfold State.exposureCounted
  split
  · rfl
  · next print =>
    have hnone : (u.void || (s.surface u.surface).due) = true := by
      simp only [Counts, not_not, Bool.or_eq_true] at h ⊢
      tauto
    exact if_pos hnone

theorem exposureCounted_counts (h : Counts s u) : s.exposureCounted u =
    let s1 := s.setSurface u.surface (s.countedSurface u.surface)
    if s.cycleRuns = true then s1 else dueComparison u.surface s1 := by
  simp only [Counts, not_or, Bool.not_eq_true] at h
  obtain ⟨print, fresh, valid, notDue⟩ := h
  unfold State.exposureCounted
  rw [if_neg (by simp [print, fresh])]
  exact if_neg (by simp [valid, notDue])

/-- During a write cycle the due comparison waits (R183). -/
theorem exposureCounted_running (runs : s.cycleRuns = true) : s.exposureCounted u = { s with
    cal := if Counts s u then { s.cal with surfaces := s.cal.surfaces.set u.surface (s.countedSurface u.surface) }
      else s.cal } := by
  by_cases counts : Counts s u
  · rw [exposureCounted_counts counts, if_pos counts]
    exact if_pos runs
  · rw [exposureCounted_none counts, if_neg counts]

/-- The state with the unit counted and the comparison of its surface made, CAL_DUE apart (R144). -/
def State.compared (s : State) (u : PrintUnit) : State :=
  { s with
    queue := { s.queue with signal := decide (FoundDue s u) }
    cal := if Counts s u then { s.cal with
        surfaces := s.cal.surfaces.set u.surface
          { s.countedSurface u.surface with due := decide (FoundDue s u), checkWaiting := false } }
      else s.cal }

theorem foundDue_setSurface (counts : Counts s u) (hsurface : u.surface < s.cal.surfaces.length) :
    let s1 := s.setSurface u.surface (s.countedSurface u.surface)
    s1.foundDue true u.surface = decide (FoundDue s u)
      ∧ s1.comparedSurface true u.surface =
        { s.countedSurface u.surface with due := decide (FoundDue s u), checkWaiting := false } := by
  intro s1
  have hread : s1.surface u.surface = s.countedSurface u.surface := by
    simp [s1, State.surface, State.setSurface, hsurface]
  have notDue : (s.countedSurface u.surface).due = false := by
    simp only [Counts, not_or, Bool.not_eq_true] at counts
    exact counts.2.2.2
  have hfound : s1.foundDue true u.surface = decide (FoundDue s u) := by
    rw [Bool.eq_iff_iff, decide_eq_true_eq, FoundDue, and_iff_right counts]
    simp only [State.foundDue, hread, notDue]
    simp [s1, Sheet.interval, State.countedSurface, and_assoc]
  exact ⟨hfound, by simp only [State.comparedSurface, hread, hfound, notDue, Bool.false_or]⟩

/-- With no write cycle the comparison is made at once (R144). -/
theorem exposureCounted_idle (idle : s.cycleRuns = false) (quiet : s.queue.signal = false)
    (hsurface : u.surface < s.cal.surfaces.length) : s.exposureCounted u =
      if FoundDue s u then (s.compared u).raise .calDue u.surface else s.compared u := by
  have hquiet : ({ s.queue with signal := false } : ExposureQueue) = s.queue := by rw [← quiet]
  by_cases counts : Counts s u
  · obtain ⟨hfound, hcompared⟩ := foundDue_setSurface counts hsurface
    have hmade := dueComparison_eq (s.setSurface u.surface (s.countedSurface u.surface)) true u.surface
    rw [Bool.true_or, if_pos rfl, hfound, hcompared] at hmade
    refine (exposureCounted_counts counts).trans ((if_neg (Bool.eq_false_iff.mp idle)).trans (hmade.trans ?_))
    simp only [State.setSurface, List.set_set, State.compared, if_pos counts]
    by_cases found : FoundDue s u
    · simp only [decide_eq_true found, if_pos found, if_true, withDue_one]
      rfl
    · simp only [decide_eq_false found, if_neg found, Bool.false_eq_true, if_false, withDue_nil, hquiet]
  · have notFound : ¬FoundDue s u := fun h => counts h.1
    rw [exposureCounted_none counts, if_neg notFound, State.compared, decide_eq_false notFound, if_neg counts, hquiet]

end

/-! ### The hand-over (R77, R99) -/

/-- The state in which a unit has joined the train's tail with the figures it can read (R99). -/
def State.joinTrain (s : State) (id : Nat) (u : PrintUnit) : State :=
  { s with
    transit := { s.transit with train := s.transit.train ++ [{
      unit := id, mark := s.transit.path
      figures := if s.cycleRuns then none else some (cutFigures s.store.general s.transit.path) }] }
    queue := { s.queue with pool := s.queue.pool.set id (some { u with place := .train }) } }

/-- The engine without its unit, TRAIN_FULL added when the train is then full (R77). -/
def Engine.handedOver (full : Bool) (e : Engine) : Engine :=
  { e with
    current := none, phase := none, line := 0, head := .unlit
    holds := { e.holds with trainFull := e.holds.trainFull || full } }

theorem handOver_eq {s : State} {id : Nat} {u : PrintUnit} (hu : s.unit? id = some u) (busy : s.engine.state ≠ .idle) :
    handOver id u s = boundary { (s.joinTrain id u).exposureCounted u with
      engine := s.engine.handedOver (decide (s.transit.train.length = 63)) } := by
  have hjoin : ({ s with transit := (s.joinTrain id u).transit } : State).modifyUnit id (fun u => { u with place := .train }) =
      s.joinTrain id u := by
    have hu' : ({ s with transit := (s.joinTrain id u).transit } : State).unit? id = some u := hu
    simp only [State.modifyUnit, hu']
    rfl
  have hleaves : Leaves (s.joinTrain id u) ((s.joinTrain id u).exposureCounted u) := by
    unfold State.exposureCounted
    split
    · exact .refl _
    · exact (Leaves.refl _).after_countPrint
  have hengine : ((s.joinTrain id u).exposureCounted u).engine = s.engine := hleaves.engine
  have hlength : ((s.joinTrain id u).exposureCounted u).transit.train.length = s.transit.train.length + 1 := by
    rw [hleaves.transit]
    simp [State.joinTrain]
  have hover : handOver id u s = boundary (State.mapEngine
      (if ((s.joinTrain id u).exposureCounted u).transit.train.length = Config.trainLimit then
        ((s.joinTrain id u).exposureCounted u).addHold .trainFull else (s.joinTrain id u).exposureCounted u)
      fun e => { e with current := none, phase := none, line := 0, head := .unlit }) := by
    rw [State.exposureCounted, ← hjoin]
    rfl
  rw [hover]
  generalize (s.joinTrain id u).exposureCounted u = t at hengine hlength
  rw [hlength, addHold_eq, hengine, if_neg busy]
  by_cases full : s.transit.train.length = 63
  · rw [if_pos (show s.transit.train.length + 1 = 64 by omega), decide_eq_true full]
    simp only [State.mapEngine, Engine.handedOver, HoldSet.put, Bool.or_true]
  · rw [if_neg (show ¬s.transit.train.length + 1 = 64 by omega), decide_eq_false full]
    simp only [State.mapEngine, Engine.handedOver, hengine, Bool.or_false]

/-! ### The end of a line period (R76) -/

/-- A unit is exposed, at a line of a phase, and waits for no first line. -/
structure AtLine (s : State) (id : Nat) (u : PrintUnit) (phase : Phase) : Prop where
  exposing : s.engine.state = .exposing
  begun    : s.engine.firstLineTimer = false
  phase    : s.engine.phase = some phase
  current  : s.engine.current = some id
  unit     : s.unit? id = some u

/-- The paper has advanced one line (R76). -/
def State.advanced (s : State) : State := s.mapEngine fun e => { e with advances := e.advances + 1 }

section
variable {s : State} {id : Nat} {u : PrintUnit} {phase : Phase}

theorem endLine_within (h : AtLine s id u phase) (within : s.engine.line + 1 < u.phaseLines phase) :
    endLine s = beginLine phase (s.engine.line + 1) s.advanced := by
  simp only [endLine, h.phase, inEngine_eq h.current h.unit]
  rw [if_pos ⟨h.exposing, h.begun⟩, if_pos within]
  rfl

theorem endLine_next {next : Phase} (h : AtLine s id u phase) (last : u.phaseLines phase ≤ s.engine.line + 1)
    (hnext : u.nextPhase (some phase) = some next) : endLine s = enterPhase next s.advanced := by
  simp only [endLine, h.phase, inEngine_eq h.current h.unit, hnext]
  rw [if_pos ⟨h.exposing, h.begun⟩, if_neg (by omega)]
  rfl

theorem endLine_mark (h : AtLine s id u .mark) (last : s.engine.line + 1 = u.mark) :
    endLine s = handOver id u s.advanced := by
  have hnext : u.nextPhase (some .mark) = none := rfl
  have hlines : u.phaseLines .mark = u.mark := rfl
  simp only [endLine, h.phase, inEngine_eq h.current h.unit, hnext, hlines]
  rw [if_pos ⟨h.exposing, h.begun⟩, if_neg (by omega)]
  rfl

/-- The line of IMAGE that follows, with nothing of it exposed yet. -/
def State.nextLine (s : State) : State := s.advanced.atLine (s.engine.line + 1)

theorem endLine_image (h : AtLine s id u .image) (within : s.engine.line + 1 < u.phaseLines .image) :
    endLine s =
      if u.spoiled = true then s.nextLine.mapEngine fun e => { e with head := borderTone }
      else if u.kind = .strip then s.nextLine.mapEngine fun e => { e with
        head := if s.engine.line + 1 < 400 then .unlit
          else .uniform (e.activeLut.convert { r := 128, g := 128, b := 128 }) }
      else beginImageLine (s.engine.line + 1) u s.nextLine :=
  (endLine_within h within).trans (beginLine_image (s := s.advanced) h.current h.unit)

/-- The next phase of a unit that LAMP_LOW does not spoil. -/
theorem endLine_enters {next : Phase} (h : AtLine s id u phase) (last : u.phaseLines phase ≤ s.engine.line + 1)
    (hnext : u.nextPhase (some phase) = some next) (sound : ¬Dips s u next) :
    endLine s = { s with engine := { Engine.entering u next s.engine with
      advances := s.engine.advances + 1, phase := some next, line := 0 } } :=
  (endLine_next h last hnext).trans ((enterPhase_entering (s := s.advanced) h.current h.unit sound).trans
    (congrArg (fun engine => { s with engine }) (entering_at u next s.engine (s.engine.advances + 1))))

/-- The next phase of a unit that LAMP_LOW spoils. -/
theorem endLine_spoils {next : Phase} (h : AtLine s id u phase) (last : u.phaseLines phase ≤ s.engine.line + 1)
    (hnext : u.nextPhase (some phase) = some next) (dips : Dips s u next) :
    endLine s = (s.advanced.atPhase next).spoilt id :=
  (endLine_next h last hnext).trans (enterPhase_spoils (s := s.advanced) h.current h.unit h.begun dips)

/-- The last MARK line of a unit, counted on its surface and handed to the train. -/
theorem endLine_hands (h : AtLine s id u .mark) (last : s.engine.line + 1 = u.mark) :
    endLine s = boundary { (s.advanced.joinTrain id u).exposureCounted u with
      engine := s.advanced.engine.handedOver (decide (s.transit.train.length = 63)) } := by
  have busy : s.advanced.engine.state ≠ .idle := by
    show s.engine.state ≠ .idle
    rw [h.exposing]
    decide
  exact (endLine_mark h last).trans (handOver_eq (s := s.advanced) h.unit busy)

end

/-- Settles O46. -/
theorem linesFollowAndHandOver : Obligations.LinesFollowAndHandOver := by
  intro id u phase s running exposing begun hphase current hu e tone lut convert line ahead afterwards
  have here : AtLine s id u phase := ⟨exposing, begun, hphase, current, hu⟩
  have hcalm : ∀ {t : State}, endLine s = t → t.queue = s.queue → t.orders = s.orders →
      exec .linePeriodEnd s = .next t := fun he hq ho =>
    exec_event_calm (c := .linePeriodEnd) rfl running he (congrArg ExposureQueue.signal hq) (congrArg OrderTable.trialDue ho)
  have hacts : ∀ {t : State}, endLine s = t → exec .linePeriodEnd s = .next (settle t) :=
    exec_event (c := .linePeriodEnd) rfl running
  refine ⟨fun within plain => ?_, fun himage within => ?_, fun passed rest next last hsplit hpassed hnext => ?_,
    fun hmark last room => ?_⟩
  · refine hcalm ((endLine_within here within).trans ((beginLine_plain _ _ plain).trans ?_)) rfl rfl
    cases phase <;> rfl
  · subst himage
    have himage := endLine_image here within
    refine ⟨fun spoiled => ?_, fun fresh strip => ?_, fun fresh print => ?_⟩
    · exact hcalm (himage.trans (if_pos spoiled)) rfl rfl
    · exact hcalm (himage.trans ((if_neg (Bool.eq_false_iff.mp fresh)).trans (if_pos strip))) rfl rfl
    · have hbegins := himage.trans ((if_neg (Bool.eq_false_iff.mp fresh)).trans (if_neg print))
      have hahead : aheadOf (e.line + 1) u = ahead := by
        unfold aheadOf PrintUnit.imageLines
        rw [if_neg print]
      refine ⟨fun pixels first => ?_, fun first => ⟨fun pixels second => ?_, fun second => ?_⟩⟩
      · rw [← hahead]
        exact hcalm (hbegins.trans (beginImageLine_first (s := s.nextLine) first)) rfl rfl
      · rw [← hahead]
        exact hcalm (hbegins.trans (beginImageLine_second (s := s.nextLine) first second)) rfl rfl
      · exact hacts (hbegins.trans (beginImageLine_underflow (s := s.nextLine) current hu fresh begun first second))
  · intro entered lit
    have hphases : phasesAfter (some phase) = afterwards := by cases phase <;> rfl
    have hfollows := nextPhase_split (hphases.trans hsplit) hpassed hnext
    refine ⟨fun sound => ?_, fun hlit hlamp fresh => ?_⟩
    · have hlead : next ≠ .lead := by
        rintro rfl
        have hmem : .lead ∈ phasesAfter (some phase) := by simp [hphases, hsplit]
        cases phase <;> simp [phasesAfter] at hmem
      refine hcalm ((endLine_enters here last hfollows sound).trans ?_) rfl rfl
      cases next with
      | lead => exact absurd rfl hlead
      | topBorder | image | bottomBorder | mark => rfl
    · exact hacts (endLine_spoils here last hfollows ⟨hlit, hlamp, fresh⟩)
  · subst hmark
    intro counts counter counted engine train queue
    have hands := endLine_hands here last
    have hjoin : s.advanced.joinTrain id u = { s.advanced with
        transit := train (if s.cycleRuns then none else some (cutFigures s.store.general s.transit.path)), queue } := rfl
    refine ⟨fun runs => ?_, fun idle hsurface => ?_⟩
    · refine hacts (hands.trans (congrArg boundary ?_))
      rw [exposureCounted_running (s := s.advanced.joinTrain id u) runs, hjoin, if_pos runs]
      rfl
    · intro n found record t
      refine hacts (hands.trans (congrArg boundary ?_))
      have hdue : found = true ↔ FoundDue (s.advanced.joinTrain id u) u := decide_eq_true_iff
      rw [exposureCounted_idle (s := s.advanced.joinTrain id u) idle running.noSignal hsurface, ← if_congr hdue rfl rfl,
        State.compared, hjoin, if_neg (Bool.eq_false_iff.mp idle)]
      split <;> rfl

end Sys2Proof.Machine
end

section
/-! A boundary and the removal of a hold reason leave the Transit Tracker alone (R71, R72). -/

namespace Sys2Proof.Machine

@[simp] theorem readSlot_transit (i : Nat) (s : State) : (readSlot i s).transit = s.transit :=
  (Leaves.refl s).after_readSlot.transit

@[simp] theorem spoilReport_transit (id : Nat) (s : State) : (spoilReport id s).transit = s.transit :=
  (Leaves.refl s).after_spoilReport.transit

@[simp] theorem routeCut_transit (id : Nat) (blind : Bool) (s : State) : (routeCut id blind s).transit = s.transit :=
  (Leaves.refl s).after_routeCut.transit

@[simp] theorem reportStart_transit (u : PrintUnit) (clamped : Bool) (s : State) :
    (reportStart u clamped s).transit = s.transit := (Leaves.refl s).after_reportStart.transit

@[simp] theorem select_transit (s : State) : (select s).2.transit = s.transit := (Leaves.after_select (.refl s)).transit

@[simp] theorem setMag_transit (m : Magazine) (r : MagazineRecord) (s : State) :
    (s.setMag m r).transit = s.transit := by
  cases m <;> rfl

@[simp] theorem addHold_transit (reason : HoldReason) (s : State) : (s.addHold reason).transit = s.transit := rfl

@[simp] theorem engineSpoil_transit (s : State) : (engineSpoil s).transit = s.transit := by
  unfold engineSpoil
  split
  · rfl
  · dsimp only
    split <;> simp

@[simp] theorem beginImageLine_transit (k : Nat) (u : PrintUnit) (s : State) :
    (beginImageLine k u s).transit = s.transit := by
  unfold beginImageLine
  split <;> simp

@[simp] theorem beginLine_transit (phase : Phase) (k : Nat) (s : State) : (beginLine phase k s).transit = s.transit := by
  cases phase with
  | lead | topBorder | bottomBorder | mark => rfl
  | image =>
    simp only [beginLine]
    split
    · rfl
    · split
      · rfl
      · split
        · split <;> rfl
        · exact beginImageLine_transit ..

@[simp] theorem enterPhase_transit (phase : Phase) (s : State) : (enterPhase phase s).transit = s.transit := by
  simp only [enterPhase]
  split
  · rfl
  · split <;> split <;> simp

@[simp] theorem completeStart_transit (id : Nat) (s : State) : (completeStart id s).transit = s.transit := by
  unfold completeStart
  split
  · rfl
  · next u _ =>
    cases u.slot <;> dsimp only <;> split <;> simp

@[simp] theorem beginStart_transit (id : Nat) (s : State) : (beginStart id s).transit = s.transit := by
  simp only [beginStart]
  split <;> simp

@[simp] theorem beginChange_transit (s : State) : (beginChange s).transit = s.transit := by
  simp only [beginChange]
  split <;> rfl

@[simp] theorem makeSelection_transit (s : State) : (makeSelection s).transit = s.transit := by
  simp only [makeSelection]
  split <;> simp

@[simp] theorem boundary_transit (s : State) : (boundary s).transit = s.transit := by
  simp only [boundary]
  split
  · split <;> simp
  · rfl

@[simp] theorem removeHold_transit (reason : HoldReason) (s : State) : (removeHold reason s).transit = s.transit := by
  simp only [removeHold]
  split <;> simp

end Sys2Proof.Machine
end

section
/-! Windows, marks and cuts (R97, R100 to R104; O49). -/

namespace Sys2Proof.Machine

/-! ### Windows (R100, R102, R103) -/

/-- The path position `p` has reached the entry's E + W; pending figures are not reached. -/
def TrainEntry.ExpiredAt (e : TrainEntry) (p : Word32) : Prop := ∃ f ∈ e.figures, (p - f.closes).toNat < 2 ^ 31

/-- E + W lies twice W after E − W. -/
theorem closes_eq_opens_add (f : CutFigures) : f.closes = f.opens + BitVec.ofNat 32 (2 * f.window) := by
  rw [CutFigures.closes, CutFigures.opens, show 2 * f.window = f.window + f.window from Nat.two_mul _, BitVec.ofNat_add]
  ring

/-- A window is as long as twice W: with W in its range the comparison of path positions never wraps (R97). -/
theorem covers_iff {f : CutFigures} (p : Word32) (hw : f.window ≤ 255) :
    f.covers p = true ↔ (p - f.opens).toNat ≤ 2 * f.window := by
  have hpast : p - f.closes = p - f.opens - BitVec.ofNat 32 (2 * f.window) := by rw [closes_eq_opens_add]; ring
  have hlast : p = f.closes ↔ p - f.opens = BitVec.ofNat 32 (2 * f.window) := by
    rw [closes_eq_opens_add, sub_eq_iff_eq_add']
  simp only [CutFigures.covers, atOrAfter, Bool.and_eq_true, Bool.or_eq_true, Bool.not_eq_true', decide_eq_true_eq,
    decide_eq_false_iff_not, beq_iff_eq, hlast, hpast]
  generalize p - f.opens = d
  bv_omega

section
variable {s : State}

theorem headExpired_iff : headExpired s = true ↔ ∃ e ∈ s.transit.train.head?, e.ExpiredAt s.transit.path := by
  unfold headExpired
  cases s.transit.train with
  | nil => simp
  | cons e rest => cases hf : e.figures <;> simp [TrainEntry.ExpiredAt, atOrAfter, hf]

theorem headExpired_cons {e : TrainEntry} {rest : List TrainEntry} (hk : s.transit.train = e :: rest) :
    headExpired s = true ↔ e.ExpiredAt s.transit.path := by
  simp [headExpired_iff, hk]

/-- After a cut that leaves `rest` on the train, a follower whose window has not closed has not expired. -/
theorem headExpired_follower {t : State} {rest : List TrainEntry} (train : t.transit.train = rest)
    (path : t.transit.path = s.transit.path) (next : ∀ e2 ∈ rest.head?, ¬e2.ExpiredAt s.transit.path) :
    headExpired t = false := by
  rw [Bool.eq_false_iff, ne_eq, headExpired_iff, train, path]
  rintro ⟨e2, hmem, hexpired⟩
  exact next e2 hmem hexpired

theorem headExpired_nil (hk : s.transit.train = []) : headExpired s = false := by
  simp [headExpired, hk]

theorem headPast_nil (hk : s.transit.train = []) : headPast s = false := by
  simp [headPast, hk]

theorem headPast_cons {e : TrainEntry} {rest : List TrainEntry} (hk : s.transit.train = e :: rest) :
    headPast s = true ↔ e.ExpiredAt s.transit.path ∧ ∀ f ∈ e.figures, s.transit.path ≠ f.closes := by
  cases hf : e.figures <;> simp [headPast, TrainEntry.ExpiredAt, atOrAfter, hk, hf]

/-! ### Cuts (R101, R102, R104) -/

theorem normalCut_eq {e : TrainEntry} {rest : List TrainEntry} (hk : s.transit.train = e :: rest) :
    normalCut e s = routeCut e.unit false (removeHold .trainFull { s with transit := { s.transit with
      train := rest, cutterCommands := s.transit.cutterCommands + 1, consecutiveBlind := 0 } }) := by
  simp only [normalCut, headLeaves, State.mapTransit, hk, List.tail_cons]

/-- A blind cut, with the head taken off the train before the hold reason is added, which leaves the train alone. -/
theorem blindCut_eq {e : TrainEntry} {rest : List TrainEntry} (hk : s.transit.train = e :: rest) :
    let s1 := spoilReport e.unit { s with transit := { s.transit with cutterCommands := s.transit.cutterCommands + 1 } }
    let n := min (s.transit.consecutiveBlind + 1) 255
    let s2 := { s1 with transit := { s1.transit with
      train := rest, consecutiveBlind := n, blindCuts := min (s.transit.blindCuts + 1) 65535 } }
    blindCut e s = routeCut e.unit true (removeHold .trainFull (if 2 ≤ n then (s2.addHold .cutterFault).raise .cutterFault
      (((s1.unit? e.unit).bind PrintUnit.number).getD 0) else s2)) := by
  intro s1 n s2
  have hs1 : s1.transit = { s.transit with cutterCommands := s.transit.cutterCommands + 1 } := spoilReport_transit ..
  have hcount : satUp s1.transit.consecutiveBlind 255 = n := by rw [hs1]; rfl
  have hblind : satUp s1.transit.blindCuts 65535 = min (s.transit.blindCuts + 1) 65535 := by rw [hs1]; rfl
  have hrest : s1.transit.train.tail = rest := by rw [hs1]; exact congrArg List.tail hk
  show routeCut e.unit true (removeHold .trainFull (((countBlind e.unit s1).mapTransit _).mapTransit _)) = _
  congr 2
  simp only [countBlind, State.mapTransit_transit, hcount]
  split <;> simp only [State.mapTransit, State.raise_transit, addHold_transit, hblind, hrest, hcount] <;> rfl

theorem normalCut_transit (e : TrainEntry) (s : State) : (normalCut e s).transit = { s.transit with
    train := s.transit.train.tail, cutterCommands := s.transit.cutterCommands + 1, consecutiveBlind := 0 } := by
  simp [normalCut, headLeaves]

theorem countBlind_transit (id : Nat) (s : State) : (countBlind id s).transit = { s.transit with
    consecutiveBlind := min (s.transit.consecutiveBlind + 1) 255 } := by
  simp only [countBlind]
  split <;> simp [satUp]

theorem blindCut_transit (e : TrainEntry) (s : State) : (blindCut e s).transit = { s.transit with
    train := s.transit.train.tail, cutterCommands := s.transit.cutterCommands + 1
    consecutiveBlind := min (s.transit.consecutiveBlind + 1) 255
    blindCuts := min (s.transit.blindCuts + 1) 65535 } := by
  simp [blindCut, headLeaves, countBlind_transit, satUp]

/-! ### Every expired head is cut (R102) -/

theorem expireHeads_of_not_expired (n : Nat) (h : headExpired s = false) : expireHeads n s = s := by
  cases n with
  | zero => rfl
  | succ n =>
    unfold expireHeads
    split
    · rfl
    · exact if_neg (by simp [h])

/-- The bound of the cuts suffices: each takes one entry from the train. -/
theorem expireHeads_none_left {n : Nat} (h : s.transit.train.length ≤ n) : headExpired (expireHeads n s) = false := by
  induction n generalizing s with
  | zero =>
    have hempty : s.transit.train = [] := List.length_eq_zero_iff.mp (Nat.le_zero.mp h)
    exact headExpired_nil hempty
  | succ n ih =>
    unfold expireHeads
    split
    · next hempty => exact headExpired_nil hempty
    · next e rest hk =>
      split
      · refine ih ?_
        rw [blindCut_transit, List.length_tail]
        omega
      · next hopen => exact Bool.eq_false_iff.mpr hopen

theorem expireAll_of_not_expired (h : headExpired s = false) : expireAll s = s := expireHeads_of_not_expired _ h

/-- An expired head is cut blind, and its follower, when its window has not closed, stays. -/
theorem expireAll_one {e : TrainEntry} {rest : List TrainEntry} (hk : s.transit.train = e :: rest)
    (expired : e.ExpiredAt s.transit.path) (next : ∀ e2 ∈ rest.head?, ¬e2.ExpiredAt s.transit.path) :
    expireAll s = blindCut e s := by
  have hhead : headExpired s = true := (headExpired_cons hk).mpr expired
  have hnext : headExpired (blindCut e s) = false := by
    refine headExpired_follower ?_ ?_ next <;> simp [blindCut_transit, hk]
  rw [expireAll, hk, List.length_cons, expireHeads]
  simp only [hk, hhead, if_true]
  exact expireHeads_of_not_expired _ hnext

/-! ### A mark (R100, R101, R103) -/

theorem decideMark_none (p : Word32) (hk : s.transit.train = []) : decideMark p s = strayMark s := by
  simp only [decideMark, hk]

theorem decideMark_pending {e : TrainEntry} {rest : List TrainEntry} (p : Word32) (hk : s.transit.train = e :: rest)
    (hf : e.figures = none) : decideMark p s = s.mapTransit fun t => { t with waitingMarks := t.waitingMarks ++ [p] } := by
  simp only [decideMark, hk, hf]

theorem decideMark_set {e : TrainEntry} {rest : List TrainEntry} {f : CutFigures} (p : Word32)
    (hk : s.transit.train = e :: rest) (hf : e.figures = some f) :
    decideMark p s = if f.covers p = true then normalCut e s else strayMark s := by
  simp only [decideMark, hk, hf]

/-- A mark that finds no closed window and cuts nothing is only decided. -/
theorem takeMark_uncut (unpassed : headPast s = false)
    (uncut : (decideMark s.transit.path s).transit.train = s.transit.train) :
    takeMark s = decideMark s.transit.path s := by
  simp [takeMark, unpassed, uncut]

theorem takeMark_none (hk : s.transit.train = []) : takeMark s = strayMark s := by
  have hmark := decideMark_none s.transit.path hk
  exact (takeMark_uncut (headPast_nil hk) (by rw [hmark]; rfl)).trans hmark

section
variable {e : TrainEntry} {rest : List TrainEntry} {f : CutFigures}

theorem takeMark_pending (hk : s.transit.train = e :: rest) (hf : e.figures = none) :
    takeMark s = s.mapTransit fun t => { t with waitingMarks := t.waitingMarks ++ [s.transit.path] } := by
  have hmark := decideMark_pending s.transit.path hk hf
  have hunpassed : headPast s = false := Bool.eq_false_iff.mpr fun h => by
    simpa [TrainEntry.ExpiredAt, hf] using ((headPast_cons hk).mp h).1
  exact (takeMark_uncut hunpassed (by rw [hmark]; rfl)).trans hmark

/-- A mark before the head's window (R100). -/
theorem takeMark_stray (hk : s.transit.train = e :: rest) (hf : e.figures = some f)
    (outside : f.covers s.transit.path = false) (early : ¬e.ExpiredAt s.transit.path) : takeMark s = strayMark s := by
  have hmark : decideMark s.transit.path s = strayMark s :=
    (decideMark_set _ hk hf).trans (if_neg (Bool.eq_false_iff.mp outside))
  have hunpassed : headPast s = false := Bool.eq_false_iff.mpr fun h => early ((headPast_cons hk).mp h).1
  exact (takeMark_uncut hunpassed (by rw [hmark]; rfl)).trans hmark

/-- A position in a window is not past it: E + W itself still cuts (log entry 22). -/
theorem headPast_of_covers (hk : s.transit.train = e :: rest) (hf : e.figures = some f)
    (inside : f.covers s.transit.path = true) : headPast s = false := by
  rw [Bool.eq_false_iff, ne_eq, headPast_cons hk]
  rintro ⟨⟨g, hg, hexpired⟩, hpast⟩
  obtain rfl : f = g := Option.some.inj (hf.symm.trans hg)
  have hlate : atOrAfter s.transit.path f.closes = true := decide_eq_true hexpired
  simp [CutFigures.covers, hlate, hpast f hf] at inside

/-- A mark in the head's window cuts the head, and the follower, when its window has not closed, stays (R101). -/
theorem takeMark_cuts (hk : s.transit.train = e :: rest) (hf : e.figures = some f)
    (inside : f.covers s.transit.path = true) (next : ∀ e2 ∈ rest.head?, ¬e2.ExpiredAt s.transit.path) :
    takeMark s = normalCut e s := by
  have hmark : decideMark s.transit.path s = normalCut e s := (decideMark_set _ hk hf).trans (if_pos inside)
  have hnext : headExpired (normalCut e s) = false := by
    refine headExpired_follower ?_ ?_ next <;> simp [normalCut_transit, hk]
  simp [takeMark, headPast_of_covers hk hf inside, hmark, expireAll_of_not_expired hnext]

/-- A mark past the window of the only entry comes after the entry's expiry (R103, log entry 22). -/
theorem takeMark_past (hk : s.transit.train = [e]) (expired : e.ExpiredAt s.transit.path)
    (past : ∀ f ∈ e.figures, s.transit.path ≠ f.closes) : takeMark s = strayMark (blindCut e s) := by
  have hpast : headPast s = true := (headPast_cons hk).mpr ⟨expired, past⟩
  have hexpire : expireAll s = blindCut e s := expireAll_one hk expired (by simp)
  have hempty : (blindCut e s).transit.train = [] := by rw [blindCut_transit, hk]; rfl
  simp [takeMark, hpast, hexpire, decideMark_none _ hempty, strayMark]

end

end

/-- Settles O49: a mark and an expiry each cut the head at most, because the head that follows is not expired
(`takeMark_cuts`, `expireAll_one`), and the cut's effect is that of `normalCut_eq` and `blindCut_eq`. -/
theorem marksAndWindowsCut : Obligations.MarksAndWindowsCut := by
  refine ⟨fun s on => congrArg Host.Outcome.next (if_pos on), fun f p hw => covers_iff p hw, fun s running => ?_⟩
  intro k stray expired
  have notDue (h : headExpired s = false) : exec .windowExpiry s = .next s :=
    exec_event_none rfl running (expireAll_of_not_expired h)
  refine ⟨⟨expireAll s, exec_event rfl running rfl, expireHeads_none_left (le_refl _)⟩, fun hk => ⟨?_, ?_⟩,
    fun e rest hk => ⟨fun pending => ?_, fun early => ?_, fun f hf _ outside early => ?_, fun f hf _ inside next => ?_,
      fun due next => ?_⟩⟩
  · exact exec_event_calm rfl running (takeMark_none hk) rfl rfl
  · exact notDue (headExpired_nil hk)
  · exact exec_event_calm rfl running (takeMark_pending hk pending) rfl rfl
  · exact notDue (Bool.eq_false_iff.mpr fun h => early ((headExpired_cons hk).mp h))
  · exact exec_event_calm rfl running (takeMark_stray hk hf outside early) rfl rfl
  · exact exec_event rfl running ((takeMark_cuts hk hf inside next).trans (normalCut_eq hk))
  · intro s1 n s2 s3 blind
    have hcut : blindCut e s = blind := blindCut_eq hk
    refine ⟨exec_event rfl running ((expireAll_one hk due next).trans hcut), fun last past => ?_⟩
    subst last
    have hcount : blind.transit.strayMarks = k.strayMarks := by rw [← hcut, blindCut_transit]
    have hmark := takeMark_past hk due past
    rw [hcut, strayMark, State.mapTransit, hcount] at hmark
    exact exec_event rfl running hmark

end Sys2Proof.Machine
end

section
/-! The bin doors (R120 to R123; O51). -/

namespace Sys2Proof.Machine

/-! ### Bins (R111) -/

section
variable {s : State} {n : Nat}

theorem bin_setBin_self (h : n - 1 < s.sorter.bins.length) (b : Bin) : (s.setBin n b).bin n = b := by
  simp [State.bin, List.getD_eq_getElem?_getD, h]

theorem setBin_setBin (s : State) (n : Nat) (a b : Bin) : (s.setBin n a).setBin n b = s.setBin n b := by
  simp [State.setBin]

/-- A report of the other level for a bin of the part is an event (R120). -/
theorem door_event {isOpen level : Bool} (h1 : 1 ≤ n) (h24 : n ≤ 24) (moves : isOpen = !level) :
    ¬(n = 0 ∨ 24 < n ∨ isOpen = level) := by
  simp [moves]
  omega

/-! ### An opening (R120 to R122) -/

/-- A report of the level that a door already has is no event (R120). -/
theorem doorOpens_open (isOpen : (s.bin n).isOpen = true) : doorOpens n s = s := if_pos (.inr (.inr isOpen))

/-- An opening of a bin that is not FILLING: a READY bin's flag is set (R122). -/
theorem doorOpens_unfilled (h1 : 1 ≤ n) (h24 : n ≤ 24) (closed : (s.bin n).isOpen = false)
    (unfilled : (s.bin n).state ≠ .filling) :
    doorOpens n s = s.setBin n { s.bin n with
      isOpen := true, opened := (s.bin n).opened || (s.bin n).state == .ready } := by
  unfold doorOpens
  rw [if_neg (door_event h1 h24 closed)]
  split
  · exact absurd ‹_› unfilled
  · exact absurd ‹_› unfilled
  · rfl

/-- An opening of a FILLING bin marks its order and reports the bin (R121). -/
theorem doorOpens_filling {i : Nat} {o : Order} (clean : CleanStorage s) (h1 : 1 ≤ n) (h24 : n ≤ 24)
    (closed : (s.bin n).isOpen = false) (filling : (s.bin n).state = .filling) (slot : (s.bin n).slot = some i)
    (ho : s.order? i = some o) :
    doorOpens n s = ((s.setBin n { s.bin n with isOpen := true }).setOrder i
      (if o.state = .damaged then o else { o with disturbed := true })).raise .binDisturbed n := by
  have clean1 (b : Bin) : CleanStorage (s.setBin n b) := clean
  have ho1 (b : Bin) : (s.setBin n b).order? i = some o := ho
  have unready : (BinState.filling == .ready) = false := rfl
  unfold doorOpens
  rw [if_neg (door_event h1 h24 closed)]
  simp only [filling, slot, unready, Bool.or_false, readSlot_clean (clean1 _), State.modifyOrder, ho1]

/-! ### A closing (R120, R122, R123) -/

theorem doorCloses_closed (closed : (s.bin n).isOpen = false) : doorCloses n s = s := if_pos (.inr (.inr closed))

/-- A closing of a FREE or FILLING bin, or of a READY one with its flag clear. -/
theorem doorCloses_plain (h1 : 1 ≤ n) (h24 : n ≤ 24) (isOpen : (s.bin n).isOpen = true)
    (plain : (s.bin n).state = .free ∨ (s.bin n).state = .filling
      ∨ ((s.bin n).state = .ready ∧ (s.bin n).opened = false)) :
    doorCloses n s = s.setBin n { s.bin n with isOpen := false } := by
  unfold doorCloses
  rw [if_neg (door_event h1 h24 isOpen)]
  obtain free | filling | ⟨ready, clear⟩ := plain
  · simp only [free]
  · simp only [filling]
  · simp only [ready, clear, Bool.false_eq_true, if_false]

/-- A bin freed with its door closed is as at reset (R111). -/
theorem freeBin_closed (h : n - 1 < s.sorter.bins.length) :
    freeBin n (s.setBin n { s.bin n with isOpen := false }) = s.setBin n Bin.reset := by
  simp only [freeBin, bin_setBin_self h, setBin_setBin, Bin.reset]

/-- A closing frees a DISCARD bin (R123). -/
theorem doorCloses_discard (h1 : 1 ≤ n) (h24 : n ≤ 24) (h : n - 1 < s.sorter.bins.length)
    (isOpen : (s.bin n).isOpen = true) (discard : (s.bin n).state = .discard) :
    doorCloses n s = s.setBin n Bin.reset := by
  unfold doorCloses
  rw [if_neg (door_event h1 h24 isOpen), ← freeBin_closed h]
  simp only [discard]

/-- The end of a READY bin's door cycle collects an order that is READY with COLLECTED clear and frees the bin;
otherwise the bin stays and its flag is cleared (R122). -/
theorem doorCloses_opened {i : Nat} {o : Order} (clean : CleanStorage s) (h1 : 1 ≤ n) (h24 : n ≤ 24)
    (h : n - 1 < s.sorter.bins.length) (isOpen : (s.bin n).isOpen = true) (ready : (s.bin n).state = .ready)
    (opened : (s.bin n).opened = true) (slot : (s.bin n).slot = some i) (ho : s.order? i = some o) :
    doorCloses n s = if o.state = .ready ∧ o.collected = false then
        settleKeys i { o with collected := true, bin := none } (s.setBin n Bin.reset)
      else s.setBin n { s.bin n with isOpen := false, opened := false } := by
  have hcollect : doorCloses n s = collectByDoor n (s.setBin n { s.bin n with isOpen := false }) := by
    unfold doorCloses
    rw [if_neg (door_event h1 h24 isOpen)]
    simp only [ready, opened, if_true]
  have clean1 (b : Bin) : CleanStorage (s.setBin n b) := clean
  have ho1 (b : Bin) : (s.setBin n b).order? i = some o := ho
  rw [hcollect, ← freeBin_closed h]
  simp only [collectByDoor, bin_setBin_self h, slot, readSlot_clean (clean1 _), ho1, setBin_setBin]

end

/-- Settles O51: a door report is `doorOpens` or `doorCloses`, which a bin's state decides, and it leaves nothing owed. -/
theorem doorEventsActByBinState : Obligations.DoorEventsActByBinState := by
  intro n s running clean h1 h24 hlen b put slot freed
  have hbin : n - 1 < s.sorter.bins.length := by omega
  have opens {t : State} (he : doorOpens n s = t) (hs : t.queue.signal = s.queue.signal)
      (ht : t.orders.trialDue = s.orders.trialDue) : exec (.binDoorOpen n) s = .next t :=
    exec_event_calm rfl running he hs ht
  have closes {t : State} (he : doorCloses n s = t) (hs : t.queue.signal = s.queue.signal)
      (ht : t.orders.trialDue = s.orders.trialDue) : exec (.binDoorClose n) s = .next t :=
    exec_event_calm rfl running he hs ht
  refine ⟨fun isOpen => opens (doorOpens_open isOpen) rfl rfl, fun closed => ⟨fun plain => ?_, fun ready => ?_,
    fun filling i o hslot ho => opens (doorOpens_filling clean h1 h24 closed filling hslot ho) rfl rfl⟩,
    fun closed => closes (doorCloses_closed closed) rfl rfl,
    fun isOpen => ⟨fun plain => closes (doorCloses_plain h1 h24 isOpen plain) rfl rfl,
      fun discard => closes (doorCloses_discard h1 h24 hbin isOpen discard) rfl rfl,
      fun ready opened i o hslot ho => ?_⟩⟩
  · have unfilled : b.state ≠ .filling := by rcases plain with h | h <;> simp [h]
    have unready : ((s.bin n).state == .ready) = false := by rcases plain with h | h <;> simp [b, h]
    refine opens ((doorOpens_unfilled h1 h24 closed unfilled).trans ?_) rfl rfl
    rw [unready, Bool.or_false]
    rfl
  · have unfilled : b.state ≠ .filling := by simp [ready]
    have isReady : ((s.bin n).state == .ready) = true := by simp [b, ready]
    refine opens ((doorOpens_unfilled h1 h24 closed unfilled).trans ?_) rfl rfl
    rw [isReady, Bool.or_true]
    rfl
  · have hcloses := doorCloses_opened clean h1 h24 hbin isOpen ready opened hslot ho
    by_cases stays : o.state ≠ .ready ∨ o.collected = true
    · have hno : ¬(o.state = .ready ∧ o.collected = false) := by simpa [or_iff_not_imp_left] using stays
      rw [if_pos stays]
      exact closes (hcloses.trans (if_neg hno)) rfl rfl
    · have hyes : o.state = .ready ∧ o.collected = false := by simpa using stays
      rw [if_pos hyes] at hcloses
      rw [if_neg stays]
      by_cases paid : o.paid = true
      · rw [if_pos paid]
        exact closes (hcloses.trans ((if_pos (by simp [paid])).trans
          (freeSlot_clean (s := s.setBin n Bin.reset) clean i))) rfl rfl
      · rw [if_neg paid]
        exact closes (hcloses.trans (if_neg (by simp [paid]))) rfl rfl

end Sys2Proof.Machine
end

section
/-! The route of a cut print, completion and the pricing pass (R18, R22, R113 to R119, R130, R131; O50). -/

namespace Sys2Proof.Machine

/-! ### Pricing (R130, R131) -/

/-- A COMPLETE order is READY with its price (R130). -/
def Order.pricedBy (price : Sheet) (o : Order) : Order :=
  if o.state = .complete then { o with state := .ready, price := some (priceOf price o) } else o

section
variable {s : State} {i : Nat}

/-- No slot is priced while the PRICE sheet is BAD (R131). -/
theorem priceSlot_bad (bad : s.store.price.bad = true) (i : Nat) : priceSlot i s = s := if_pos bad

theorem priceSlot_good (clean : CleanStorage s) (good : s.store.price.bad = false) {o : Order}
    (ho : s.order? i = some o) : priceSlot i s = s.setOrder i (o.pricedBy s.store.price) := by
  have hbad : ¬s.store.price.bad = true := Bool.eq_false_iff.mp good
  unfold Order.pricedBy
  by_cases complete : o.state = .complete
  · simp only [priceSlot, if_neg hbad, ho, complete, if_true, readSlot_clean clean]
  · simp only [priceSlot, if_neg hbad, ho, complete, if_false, setOrder_self ho]

theorem priceSlot_slots (clean : CleanStorage s) (good : s.store.price.bad = false) (h : i < s.orders.slots.length) :
    priceSlot i s = s.withSlots (s.orders.slots.set i ((s.orders.slots[i]).map (Order.pricedBy s.store.price))) := by
  rw [← order?_eq_getElem h]
  cases ho : s.order? i with
  | none =>
    have hself : s.orders.slots.set i none = s.orders.slots := by
      rw [← ho, order?_eq_getElem h, List.set_getElem_self]
    simp only [priceSlot, good, ho, Bool.false_eq_true, if_false, Option.map_none, hself, State.withSlots]
  | some o => exact priceSlot_good clean good ho

/-- A pass that acts on each slot by itself changes every slot by its function. -/
theorem foldl_withSlots {step : Nat → State → State} {f : Option Order → Option Order}
    (acts : ∀ (slots : List (Option Order)) (n : Nat) (h : n < slots.length),
      step n (s.withSlots slots) = s.withSlots (slots.set n (f slots[n]))) :
    ∀ n ≤ s.orders.slots.length,
      (List.range n).foldl (fun s i => step i s) s = s.withSlots (passed f n s.orders.slots) := by
  intro n
  induction n with
  | zero => exact fun _ => rfl
  | succ n ih =>
    intro hn
    have hlen : n < (passed f n s.orders.slots).length := by simpa using hn
    have hnext : (passed f n s.orders.slots)[n] = s.orders.slots[n] :=
      Option.some.inj (by rw [← List.getElem?_eq_getElem, passed_getElem? f hn, List.getElem?_eq_getElem hn])
    rw [List.range_succ, List.foldl_append, ih (by omega), List.foldl_cons, List.foldl_nil, acts _ n hlen, hnext,
      passed_set f hn]

/-- A pass with the PRICE sheet BAD changes nothing (R131). -/
theorem pricingPass_bad (bad : s.store.price.bad = true) : pricingPass s = s :=
  List.foldlRecOn (motive := (· = s)) slotIndexes _ rfl fun _ ht i _ => by rw [ht, priceSlot_bad bad]

/-- A pass with the PRICE sheet good prices every COMPLETE order (R130). -/
theorem pricingPass_good (clean : CleanStorage s) (good : s.store.price.bad = false)
    (hlen : s.orders.slots.length = 64) :
    pricingPass s = s.withSlots (s.orders.slots.map (Option.map (Order.pricedBy s.store.price))) := by
  have hpass := foldl_withSlots (s := s) (step := priceSlot) (f := Option.map (Order.pricedBy s.store.price))
    (fun slots n h => priceSlot_slots (withSlots_clean clean slots) good h) 64 (by rw [hlen])
  rwa [passed_all hlen] at hpass

/-- The pass that an order's completion starts waits on a write cycle, or finds the sheet BAD (R130, R131). -/
theorem priceCompleted_none (h : s.cycleRuns = true ∨ s.store.price.bad = true) (i : Nat) : priceCompleted i s = s := by
  unfold priceCompleted
  split
  · rfl
  · exact priceSlot_bad (h.resolve_left ‹_›) i

theorem priceCompleted_good (clean : CleanStorage s) (idle : s.cycleRuns = false) (good : s.store.price.bad = false)
    {o : Order} (ho : s.order? i = some o) : priceCompleted i s = s.setOrder i (o.pricedBy s.store.price) :=
  (if_neg (Bool.eq_false_iff.mp idle)).trans (priceSlot_good clean good ho)

end

/-! ### The first row of R113's table that applies -/

section
variable {id i : Nat} {blind : Bool} {u : PrintUnit} {o : Order} {s : State}

theorem routeCut_void (clean : CleanStorage s) (hu : s.unit? id = some u) (print : u.kind ≠ .strip)
    (void : u.void = true) : routeCut id blind s = (voidGone u (rejectPrint s)).releaseUnit id := by
  cases hslot : u.slot <;> simp [routeCut, hu, print, readSlot_clean clean, void, hslot]

theorem routeCut_spoiled (clean : CleanStorage s) (hu : s.unit? id = some u) (print : u.kind ≠ .strip)
    (valid : u.void = false) (spoiled : u.spoiled = true ∨ blind = true) :
    routeCut id blind s = (rejectPrint s).releaseUnit id := by
  have hspoiled : (u.spoiled || blind) = true := by simpa using spoiled
  cases hslot : u.slot <;> simp [routeCut, hu, print, readSlot_clean clean, valid, hspoiled, hslot]

/-- A print that is neither VOID nor SPOILED nor cut blind goes by its order. -/
structure GoodPrint (s : State) (id : Nat) (blind : Bool) (u : PrintUnit) : Prop where
  clean   : CleanStorage s
  unit    : s.unit? id = some u
  print   : u.kind ≠ .strip
  valid   : u.void = false
  exposed : u.spoiled = false
  seen    : blind = false

theorem routeCut_unclaimed (good : GoodPrint s id blind u) (none : s.soundOrder u = none) :
    routeCut id blind s = (unclaimedPrint s).releaseUnit id := by
  obtain ⟨clean, hu, print, valid, exposed, seen⟩ := good
  cases hslot : u.slot <;> simp [routeCut, hu, print, readSlot_clean clean, valid, exposed, seen, hslot, none]

theorem routeCut_claimed (good : GoodPrint s id blind u) (hslot : u.slot = some i) (ho : s.soundOrder u = some o) :
    routeCut id blind s = (completeIfDone i (placeGood i o s)).releaseUnit id := by
  obtain ⟨clean, hu, print, valid, exposed, seen⟩ := good
  simp [routeCut, hu, print, readSlot_clean clean, valid, exposed, seen, hslot, ho]

/-- A VOID print of an order in CANCELLING lowers its void count, or frees its slot with the last one (R22). -/
theorem voidGone_cancelling {voids : Nat} (hslot : u.slot = some i) (ho : s.order? i = some o)
    (hnumber : u.number = some o.number) (cancelling : o.state = .cancelling) (hvoids : o.voids = some voids) :
    voidGone u s = if voids ≤ 1 then s.freeSlot i else s.setOrder i { o with voids := some (voids - 1) } := by
  have hunit : s.unitOrder u = some o := by simp [State.unitOrder, hslot, ho, hnumber]
  simp only [voidGone, hslot, hunit, cancelling, if_true, hvoids, Option.getD_some, Nat.sub_eq_zero_iff_le]

/-! ### Where a good print goes (R114, R118) -/

/-- The state with the order of a slot and the Sorter written. -/
def State.placed (s : State) (i : Nat) (o : Order) (k : Sorter) : State := { s.setOrder i o with sorter := k }

/-- The Sorter with a print more in the overflow tray. -/
def Sorter.overflowed (k : Sorter) : Sorter := { k with gate := .overflow, overflow := min (k.overflow + 1) 65535 }

/-- The order with a good print more in the overflow tray, and SPILL set (R114). -/
def Order.spilt (o : Order) : Order := { o.deliver with trayCount := o.trayCount + 1, spill := true }

/-- Its order's FILLING bin takes a print below the capacity. -/
theorem placeGood_filling {n : Nat} (hbin : o.bin = some n) (filling : (s.bin n).state = .filling)
    (room : (s.bin n).count < s.sorter.capacity) :
    placeGood i o s = s.placed i o.deliver { s.sorter with
      gate := .bin n, bins := s.sorter.bins.set (n - 1) { s.bin n with count := (s.bin n).count + 1 } } := by
  simp only [placeGood, hbin]
  exact if_pos ⟨filling, room⟩

theorem placeGood_full {n : Nat} (hbin : o.bin = some n)
    (full : (s.bin n).state ≠ .filling ∨ s.sorter.capacity ≤ (s.bin n).count) :
    placeGood i o s = s.placed i o.spilt s.sorter.overflowed := by
  have hno : ¬((s.bin n).state = .filling ∧ (s.bin n).count < s.sorter.capacity) := by
    simpa [or_iff_not_imp_left] using full
  simp only [placeGood, hbin]
  exact if_neg hno

theorem givable_iff (b : Bin) : b.givable = true ↔ b.state = .free ∧ b.isOpen = false := by simp [Bin.givable]

/-- The lowest FREE bin with its door closed. -/
theorem find_givable {n : Nat} (h1 : 1 ≤ n) (h24 : n ≤ 24) (free : (s.bin n).state = .free ∧ (s.bin n).isOpen = false)
    (lowest : ∀ m, 1 ≤ m → m < n → ¬((s.bin m).state = .free ∧ (s.bin m).isOpen = false)) :
    (binNumbers.find? fun n => (s.bin n).givable) = some n := by
  obtain ⟨k, rfl⟩ := Nat.exists_eq_add_of_le' h1
  have hfirst : (List.range 24).find? (fun m => (s.bin (m + 1)).givable) = some k := by
    rw [List.find?_range_eq_some]
    refine ⟨(givable_iff _).mpr free, List.mem_range.mpr (by omega), fun m hm => ?_⟩
    have hnot := mt (givable_iff (s.bin (m + 1))).mp (lowest (m + 1) (by omega) (by omega))
    simpa using hnot
  simp only [binNumbers, List.find?_map, Function.comp_def, hfirst, Option.map_some]

theorem find_givable_none (none : ∀ n, 1 ≤ n → n ≤ 24 → ¬((s.bin n).state = .free ∧ (s.bin n).isOpen = false)) :
    (binNumbers.find? fun n => (s.bin n).givable) = Option.none := by
  rw [List.find?_eq_none]
  intro n hn
  obtain ⟨m, hm, rfl⟩ := List.mem_map.mp hn
  exact mt (givable_iff _).mp (none (m + 1) (by omega) (by have := List.mem_range.mp hm; omega))

/-- An order with no bin is given one. -/
theorem placeGood_given {n : Nat} (hbin : o.bin = none)
    (hfind : (binNumbers.find? fun n => (s.bin n).givable) = some n) :
    placeGood i o s = s.placed i { o.deliver with bin := some n } { s.sorter with
      gate := .bin n
      bins := s.sorter.bins.set (n - 1)
        { state := .filling, number := some o.number, slot := some i, count := 1, isOpen := (s.bin n).isOpen
          opened := false } } := by
  simp only [placeGood, hbin, hfind]
  rfl

theorem placeGood_none (hbin : o.bin = none) (hfind : (binNumbers.find? fun n => (s.bin n).givable) = none) :
    placeGood i o s = s.placed i o.spilt s.sorter.overflowed := by
  simp only [placeGood, hbin, hfind]
  rfl

/-! ### Completion (R18, R119) -/

/-- A good print of the order that is its last one. -/
abbrev IsLast (o : Order) : Prop := o.state = .exposing ∧ o.delivered + 1 = o.requested

/-- The bins when an order with the bin given, if any, completes: it is READY with its flag clear (R119). -/
def completedBins (bin : Option Nat) (bins : List Bin) : List Bin :=
  match bin with
  | some n => bins.set (n - 1) { bins.getD (n - 1) Bin.reset with state := .ready, opened := false }
  | none => bins

/-- A bin that takes a print is READY with the last one. -/
theorem completedBins_set (n : Nat) (bins : List Bin) (b : Bin) (done : Prop) [Decidable done] :
    (if done then completedBins (some n) (bins.set (n - 1) b) else bins.set (n - 1) b) = bins.set (n - 1)
      { b with state := if done then .ready else b.state, opened := b.opened && !decide done } := by
  by_cases hdone : done
  · by_cases h : n - 1 < bins.length
    · simp [completedBins, hdone, List.getD_eq_getElem?_getD, h]
    · simp [completedBins, hdone, List.set_eq_of_length_le (Nat.le_of_not_lt h)]
  · simp [hdone]

theorem completeIfDone_placed (hi : i < s.orders.slots.length) (k : Sorter) :
    completeIfDone i (s.placed i o k) =
      if o.state = .exposing ∧ o.delivered = o.requested then
        priceCompleted i (s.placed i { o with state := .complete } { k with bins := completedBins o.bin k.bins })
      else s.placed i o k := by
  have ho : (s.placed i o k).order? i = some o := (order?_set hi rfl i).trans (if_pos rfl)
  have hset (a : Order) : (s.placed i o k).setOrder i a = s.placed i a k := by simp [State.placed, State.setOrder]
  unfold completeIfDone completedBins
  simp only [ho, hset]
  cases o.bin <;> rfl

/-- A good print of an order is placed and counted, and the order completes with its last one (R18, R114, R119). Its
order as counted is `a`, the Sorter `k`. -/
theorem routeCut_placed {a : Order} {k : Sorter} {bins : List Bin} (good : GoodPrint s id blind u)
    (hslot : u.slot = some i) (ho : s.soundOrder u = some o) (placed : placeGood i o s = s.placed i a k)
    (counted : a.delivered = o.delivered + 1 ∧ a.requested = o.requested ∧ a.state = o.state)
    (hbins : (if IsLast o then completedBins a.bin k.bins else k.bins) = bins) :
    routeCut id blind s =
      let t := s.placed i { a with state := if IsLast o then .complete else o.state } { k with bins }
      (if IsLast o then priceCompleted i t else t).releaseUnit id := by
  obtain ⟨j, hj, hslotted, -⟩ := soundOrder_some.mp ho
  obtain rfl : j = i := Option.some.inj (hj.symm.trans hslot)
  obtain ⟨hdelivered, hrequested, hstate⟩ := counted
  subst hbins
  have hdone : (a.state = .exposing ∧ a.delivered = a.requested) ↔ IsLast o := by
    rw [hdelivered, hrequested, hstate]
  rw [routeCut_claimed good hslot ho, placed, completeIfDone_placed (order?_lt hslotted)]
  by_cases last : IsLast o
  · simp only [if_pos last, if_pos (hdone.mpr last)]
  · simp only [if_neg last, if_neg (mt hdone.mp last), ← hstate]

end

/-- Settles O50: the row of R113's table that applies gives the print its place (`routeCut_void` and the lemmas after
it), `placeGood`'s cases give a good print its bin, and a pricing pass acts on each slot by itself. -/
theorem cutPrintsAreRouted : Obligations.CutPrintsAreRouted := by
  refine ⟨fun id u blind s clean hu print => ?_, fun s clean hlen => ?_⟩
  · intro k gone rejected
    refine ⟨fun valid spoiled => routeCut_spoiled clean hu print valid spoiled,
      fun void i o voids hslot ho hn hs hv => ?_, fun valid exposed seen unclaimed => ?_,
      fun valid exposed seen i o hslot ho hn sound => ?_⟩
    · have hrejected : CleanStorage (rejectPrint s) := clean
      rw [routeCut_void clean hu print void, voidGone_cancelling (s := rejectPrint s) hslot ho hn hs hv]
      split
      · rw [freeSlot_clean hrejected]
        rfl
      · rfl
    · have none : s.soundOrder u = none := Option.eq_none_iff_forall_ne_some.mpr fun o ho => by
        obtain ⟨i, hslot, hi, hn, sound⟩ := soundOrder_some.mp ho
        exact sound (unclaimed i o hslot hi hn)
      exact routeCut_unclaimed ⟨clean, hu, print, valid, exposed, seen⟩ none
    · intro last state placed givable spilt
      have good : GoodPrint s id blind u := ⟨clean, hu, print, valid, exposed, seen⟩
      have claimed : s.soundOrder u = some o := soundOrder_some.mpr ⟨i, hslot, ho, hn, sound⟩
      refine ⟨fun n hbin filling room => ?_, fun n hbin full => ?_, fun hbin n h1 h24 free lowest => ?_,
        fun hbin none => ?_⟩
      · refine routeCut_placed good hslot claimed (placeGood_filling hbin filling room) ⟨rfl, rfl, rfl⟩ ?_
        rw [← filling, Order.deliver, hbin]
        exact completedBins_set n ..
      · refine routeCut_placed good hslot claimed (placeGood_full hbin full) ⟨rfl, rfl, rfl⟩ ?_
        rw [Order.spilt, Order.deliver, hbin]
        rfl
      · have lowestFree := find_givable h1 h24 free lowest
        exact routeCut_placed good hslot claimed (placeGood_given hbin lowestFree) ⟨rfl, rfl, rfl⟩
          (completedBins_set n ..)
      · refine routeCut_placed good hslot claimed (placeGood_none hbin (find_givable_none none)) ⟨rfl, rfl, rfl⟩ ?_
        rw [Order.spilt, Order.deliver, hbin]
        exact ite_self _
  · exact ⟨pricingPass_bad, fun good => pricingPass_good clean good hlen, fun i =>
      ⟨fun h => priceCompleted_none h i, fun idle good o ho => priceCompleted_good clean idle good ho⟩⟩

end Sys2Proof.Machine
end

section
/-! The price of an order: tiers, line amounts, percentages, total and maxima (R132 to R135; O53). -/

namespace Sys2Proof.Machine

/-! ### Unit prices (R132) -/

theorem lowHalf_eq_mod (w : Word32) : lowHalf w = w.toNat % 65536 := by
  simp [lowHalf]

theorem highHalf_eq_div (w : Word32) : highHalf w = w.toNat / 65536 := by
  have hw := w.isLt
  rw [highHalf, BitVec.extractLsb'_toNat, Nat.shiftRight_eq_div_pow]
  omega

theorem lowHalf_le (w : Word32) : lowHalf w ≤ 65535 := by
  rw [lowHalf_eq_mod]
  omega

theorem unitPrice_le (price : Sheet) (size count : Nat) : unitPrice price size count ≤ 65535 := by
  dsimp only [unitPrice]
  split
  · exact lowHalf_le _
  · split <;> exact lowHalf_le _

/-! ### Line amounts and the subtotal (R133) -/

/-- What R132 and R133 read of a line: its size, its surface and its quantity. -/
def Line.charged (l : Line) : Nat × Nat × Nat := (l.size, l.surface, l.quantity)

/-- The amount of a line from what is read of it and the count of each size. -/
def chargeOf (price : Sheet) (count : Nat → Nat) : Nat × Nat × Nat → Nat
  | (size, surface, quantity) => quantity * (unitPrice price size (count size) + surcharge price surface)

theorem lineAmount_eq_chargeOf (price : Sheet) (lines : List Line) :
    lineAmount price lines = chargeOf price (sizeCount lines) ∘ Line.charged := rfl

theorem sizeCount_eq_charged (lines : List Line) (size : Nat) :
    sizeCount lines size = (((lines.map Line.charged).filter (·.1 == size)).map (·.2.2)).sum := by
  rw [List.filter_map, List.map_map]
  rfl

theorem subtotal_eq_charged (price : Sheet) (lines : List Line) :
    subtotal price lines = ((lines.map Line.charged).map (chargeOf price (sizeCount lines))).sum := by
  rw [List.map_map]
  rfl

/-- The subtotal is settled by what is read of the lines. -/
theorem subtotal_congr (price : Sheet) {lines lines' : List Line}
    (same : lines'.map Line.charged = lines.map Line.charged) : subtotal price lines' = subtotal price lines := by
  have counts : sizeCount lines' = sizeCount lines := funext fun size => by
    rw [sizeCount_eq_charged, sizeCount_eq_charged, same]
  rw [subtotal_eq_charged, subtotal_eq_charged, same, counts]

/-- The surcharges are in their range (R129). -/
def SurchargesInRange (price : Sheet) : Prop := ∀ surface ≤ 3, price.value (48 + surface) ≤ 999

section
variable {price : Sheet} {lines : List Line}

theorem lineAmount_le (surcharges : SurchargesInRange price) {l : Line} (hsurface : l.surface ≤ 3) :
    lineAmount price lines l ≤ l.quantity * 66534 :=
  Nat.mul_le_mul_left _ (Nat.add_le_add (unitPrice_le price ..) (surcharges _ hsurface))

/-- The largest line amount: 99 prints at the highest price and surcharge. -/
theorem lineAmount_le_max (surcharges : SurchargesInRange price) {l : Line} (hquantity : l.quantity ≤ 99)
    (hsurface : l.surface ≤ 3) : lineAmount price lines l ≤ 6586866 := by
  have hamount : lineAmount price lines l ≤ l.quantity * 66534 := lineAmount_le surcharges hsurface
  omega

theorem subtotal_le (surcharges : SurchargesInRange price) (hsurface : ∀ l ∈ lines, l.surface ≤ 3) :
    subtotal price lines ≤ totalQuantity lines * 66534 := by
  rw [totalQuantity, ← List.sum_map_mul_right]
  exact List.sum_le_sum fun l hl => lineAmount_le surcharges (hsurface l hl)

/-- The largest subtotal: 400 prints at the highest price and surcharge. -/
theorem subtotal_le_max (surcharges : SurchargesInRange price) (hsurface : ∀ l ∈ lines, l.surface ≤ 3)
    (hcount : totalQuantity lines ≤ 400) : subtotal price lines ≤ 26613600 := by
  have hsum := subtotal_le surcharges hsurface
  omega

end

/-! ### The percentages (R134) -/

@[simp] theorem percentOf_zero (percent : Nat) : percentOf 0 percent = 0 := by
  simp [percentOf]

theorem percentOf_hundred (amount : Nat) : percentOf amount 100 = amount := by
  unfold percentOf
  omega

/-- Rounding half up does not lift a percentage of at most 100 over the amount. -/
theorem percentOf_le {amount percent : Nat} (h : percent ≤ 100) : percentOf amount percent ≤ amount :=
  calc percentOf amount percent
    _ ≤ percentOf amount 100 := Nat.div_le_div_right (Nat.add_le_add_right (Nat.mul_le_mul_left amount h) 50)
    _ = amount := percentOf_hundred amount

/-- A percentage that applies only under a condition. -/
theorem ite_percentOf_le {c : Prop} [Decidable c] {amount percent : Nat} (h : percent ≤ 100) :
    (if c then percentOf amount percent else 0) ≤ amount := by
  split
  · exact percentOf_le h
  · exact Nat.zero_le _

/-! ### The total (R135) -/

theorem totalOf_eq (subtotal rush discount minimum : Nat) :
    totalOf subtotal rush discount minimum =
      min (if subtotal + rush - discount < minimum then minimum else subtotal + rush - discount) 9999999 := by
  unfold totalOf
  split <;> omega

theorem totalOf_le (subtotal rush discount minimum : Nat) : totalOf subtotal rush discount minimum ≤ 9999999 :=
  Nat.min_le_right ..

theorem totalOf_eq_zero {subtotal rush discount : Nat} (h : subtotal + rush ≤ discount) :
    totalOf subtotal rush discount 0 = 0 := by
  unfold totalOf
  omega

/-! ### The price record (R132 to R136) -/

section
variable {price : Sheet} {o : Order}

theorem priceOf_lateDiscount_hundred (late : o.late = true) (hundred : price.value 53 = 100) :
    (priceOf price o).lateDiscount = (priceOf price o).subtotal := by
  simp only [priceOf, late, hundred, if_true, percentOf_hundred]

theorem priceOf_total_empty (minimum : price.value 54 = 0) (empty : (priceOf price o).subtotal = 0) :
    (priceOf price o).total = 0 := by
  have hsum : subtotal price o.lines = 0 := empty
  simp only [priceOf, minimum, hsum, percentOf_zero, ite_self]
  exact totalOf_eq_zero (Nat.le_refl 0)

/-- A STANDARD order that is late is free at a discount of 100 percent and no minimum. -/
theorem priceOf_total_free (minimum : price.value 54 = 0) (standard : o.cls = .standard) (late : o.late = true)
    (hundred : price.value 53 = 100) : (priceOf price o).total = 0 := by
  have norush : o.cls ≠ .rush := by simp [standard]
  simp only [priceOf, minimum, if_neg norush, late, hundred, if_true, percentOf_hundred]
  exact totalOf_eq_zero (Nat.le_refl _)

/-- The price is settled by the lines, the billing class and the LATE flag. -/
theorem priceOf_congr {o' : Order} (cls : o'.cls = o.cls) (late : o'.late = o.late)
    (lines : o'.lines.map Line.charged = o.lines.map Line.charged) : priceOf price o' = priceOf price o := by
  simp only [priceOf, cls, late, subtotal_congr price lines]

theorem priceOf_figures_le (surcharges : SurchargesInRange price) (rush : price.value 52 ≤ 100)
    (late : price.value 53 ≤ 100) (hsurface : ∀ l ∈ o.lines, l.surface ≤ 3) (hcount : totalQuantity o.lines ≤ 400) :
    let p := priceOf price o
    p.subtotal ≤ 26613600 ∧ p.rushAdd ≤ 26613600 ∧ p.lateDiscount ≤ p.subtotal
      ∧ p.subtotal + p.rushAdd - p.lateDiscount ≤ 53227200 := by
  intro p
  have hsum : p.subtotal ≤ 26613600 := subtotal_le_max surcharges hsurface hcount
  have hrush : p.rushAdd ≤ p.subtotal := ite_percentOf_le rush
  have hlate : p.lateDiscount ≤ p.subtotal := ite_percentOf_le late
  omega

end

/-! ### The maxima are reached (R133) -/

/-- PRICE with size 0 at the highest unit price and surface 0 at the highest surcharge. -/
def dearestPrice : Sheet := deliveredSheet (halves 65535 0 :: List.replicate 47 0 ++ 999 :: List.replicate 14 0)

/-- A line of size 0 on surface 0. -/
def plainLine (quantity : Nat) : Line :=
  { size := 0, surface := 0, quantity, border := .none, d := 0, c := 0, m := 0, y := 0, handle := 0
    clamped := false }

/-- 400 prints: four lines of the largest quantity, and a fifth. -/
def fullLines : List Line := [99, 99, 99, 99, 4].map plainLine

theorem dearestPrice_lineAmount (quantity : Nat) :
    lineAmount dearestPrice fullLines (plainLine quantity) = quantity * 66534 := by
  have hunit : unitPrice dearestPrice 0 (sizeCount fullLines 0) = 65535 := by decide
  have hsurcharge : surcharge dearestPrice 0 = 999 := by decide
  simp only [lineAmount, plainLine, hunit, hsurcharge]

theorem dearestPrice_subtotal : subtotal dearestPrice fullLines = 26613600 :=
  calc subtotal dearestPrice fullLines
    _ = ([99, 99, 99, 99, 4].map fun quantity => lineAmount dearestPrice fullLines (plainLine quantity)).sum := rfl
    _ = 26613600 := by simp only [dearestPrice_lineAmount]; rfl

/-- Settles O53: the figures are those of `priceOf`, its halves of entries read as remainder and quotient
(`lowHalf_eq_mod`, `highHalf_eq_div`); the maxima follow from `unitPrice_le` and `percentOf_le`. -/
theorem priceIsFormedByTheRules : Obligations.PriceIsFormedByTheRules := by
  refine ⟨fun price o => ?_, dearestPrice, fullLines, by decide, by decide, by decide,
    ⟨plainLine 99, .head _, dearestPrice_lineAmount 99⟩, dearestPrice_subtotal⟩
  intro count low high unit amount p figure
  have hamount : ∀ l, lineAmount price o.lines l = amount l := fun l => by
    simp only [lineAmount, unitPrice, lowHalf_eq_mod, highHalf_eq_div]
    rfl
  refine ⟨hamount, congrArg (fun f => (o.lines.map f).sum) (funext hamount), rfl, rfl, totalOf_eq .., totalOf_le ..,
    rfl, fun surcharges rush late hlines hcount => ⟨fun l hl => ?_, ?_⟩, priceOf_lateDiscount_hundred,
    fun minimum free => ?_, fun _ cls late lines => priceOf_congr cls late lines⟩
  · obtain ⟨hquantity, hsurface⟩ := hlines l hl
    rw [← hamount]
    exact lineAmount_le_max surcharges hquantity hsurface
  · exact priceOf_figures_le surcharges rush late (fun l hl => (hlines l hl).2) hcount
  · rcases free with empty | ⟨standard, late, hundred⟩
    · exact priceOf_total_empty minimum empty
    · exact priceOf_total_free minimum standard late hundred

end Sys2Proof.Machine
end

section
/-! START_CAL and WAIVE_CAL, the conversions of a strip and its hand-over (R146, R147, R149 to R151; O54). -/

namespace Sys2Proof.Machine

/-! ### START_CAL (R46, R147) -/

section
variable {s : State} {surface : Nat}

theorem decideStartCal_badValue (out : 3 < surface) : decideStartCal surface s = (.answer .badValue [], s) :=
  if_pos out

theorem decideStartCal_sheetBad (within : surface ≤ 3) (bad : s.store.calibration.bad = true) :
    decideStartCal surface s = (.answer .sheetBad [], s) :=
  (if_neg (Nat.not_lt.mpr within)).trans (if_pos bad)

variable (within : surface ≤ 3) (good : s.store.calibration.bad = false)
include within good

/-- Past the tests of its operand and of the sheet, START_CAL looks for a calibration under way (R147). -/
theorem decideStartCal_good : decideStartCal surface s =
    if s.cal.strip ≠ .none ∨ s.stripAbout = true then refuse .wrongState s
    else if 504 < s.unitsInUse then refuse .full s
    else if s.cycleRuns = true then (.wait false, s)
    else queueStrip surface s :=
  (if_neg (Nat.not_lt.mpr within)).trans (if_neg (Bool.eq_false_iff.mp good))

theorem decideStartCal_wrongState (busy : s.cal.strip ≠ .none ∨ s.stripAbout = true) :
    decideStartCal surface s = (.answer .wrongState [], s) :=
  (decideStartCal_good within good).trans (if_pos busy)

variable (free : ¬(s.cal.strip ≠ .none ∨ s.stripAbout = true))
include free

theorem decideStartCal_full (full : 504 < s.unitsInUse) : decideStartCal surface s = (.answer .full [], s) :=
  (decideStartCal_good within good).trans ((if_neg free).trans (if_pos full))

theorem decideStartCal_queues (room : s.unitsInUse ≤ 504) (idle : s.cycleRuns = false) :
    decideStartCal surface s = queueStrip surface s :=
  (decideStartCal_good within good).trans
    ((if_neg free).trans ((if_neg (Nat.not_lt.mpr room)).trans (if_neg (Bool.eq_false_iff.mp idle))))

end

/-- A strip made in the lowest FREE record joins the tail of the strip section (R46, R147). -/
theorem queueStrip_eq {s : State} {id : Nat} (hfree : s.queue.pool.findIdx? Option.isNone = some id) (surface : Nat) :
    queueStrip surface s = (.answer .ok (item16 id ++ item16 (stripUnit surface s.store.general).length),
      { s with
        queue := { s.queue with
          pool := s.queue.pool.set id (some (stripUnit surface s.store.general))
          strip := s.queue.strip ++ [id], signal := true }
        cal := { s.cal with strip := .out surface id false } }) := by
  simp only [queueStrip, State.makeUnit, hfree]
  rfl

/-- START_CAL ends with its answer, and then the end of the step (R13, R48). -/
theorem exec_startCal_answer {s t : State} {h : Header} {surface : Nat} {status : Status} {body : List Byte}
    (calm : Calm s) (hd : decideStartCal surface s = (.answer status body, t)) :
    exec (.startCal h surface) s = .next (settle (t.answered h (.startCal surface) status body)) :=
  congrArg Host.Outcome.next (serveActing_answer calm.accepts hd)

/-! ### WAIVE_CAL (R146) -/

/-- A signal given on a condition, beside one that already stands (R48). -/
theorem signal_ite (s : State) (due : Bool) : (if due = true then s.signal else s) =
    { s with queue := { s.queue with signal := s.queue.signal || due } } := by
  cases due
  · simp
  · simp [State.signal]

theorem decideWaiveCal_badValue {s : State} {surface : Nat} (out : 3 < surface) :
    decideWaiveCal surface s = (.answer .badValue [], s) := if_pos out

/-- A waived surface is no longer due and counts from 0; the queue is signalled when it was due. -/
theorem decideWaiveCal_within {s : State} {surface : Nat} (within : surface ≤ 3) (quiet : s.queue.signal = false) :
    decideWaiveCal surface s = (.answer .ok (itemFlag (s.surface surface).due ++ item16 (s.surface surface).counter),
      { s with
        cal := { s.cal with
          surfaces := s.cal.surfaces.set surface { s.surface surface with due := false, counter := 0 } }
        queue := { s.queue with signal := (s.surface surface).due } }) := by
  refine (if_neg (Nat.not_lt.mpr within)).trans (congrArg (Prod.mk _) ((signal_ite _ _).trans ?_))
  rw [show (s.setSurface surface _).queue.signal = false from quiet, Bool.false_or]
  rfl

/-! ### The conversions (R150, R151) -/

/-- The filters of the six conversions, in their order. -/
theorem filterOf_succ {k : Nat} (first : 1 ≤ k) (last : k < 6) :
    filterOf (k + 1) = [Filter.baseRed, .baseGreen, .baseBlue, .greyRed, .greyGreen, .greyBlue].getD k .noReading := by
  interval_cases k <;> rfl

section
variable {s : State} {value u id k : Nat} {values : List Nat}

theorem takeConversion_none (notReading : ∀ u id k values, s.cal.strip ≠ .reading u id k values) :
    takeConversion value s = s := by
  unfold takeConversion
  split
  · next reading => exact absurd reading (notReading _ _ _ _)
  · rfl

variable (reading : s.cal.strip = .reading u id k values)
include reading

theorem takeConversion_next (more : k < 6) : takeConversion value s = { s with
    cal := { s.cal with strip := .reading u id (k + 1) (values ++ [value]), filter := filterOf (k + 1) } } := by
  simp only [takeConversion, reading, if_pos more]

theorem takeConversion_last (last : ¬k < 6) :
    let t := { s with
      queue := { s.queue with pool := s.queue.pool.set id none, signal := true }
      cal := { s.cal with strip := .settling u (values ++ [value]), filter := .noReading } }
    takeConversion value s = if s.cycleRuns = true then t else takeResult u (values ++ [value]) t := by
  simp only [takeConversion, reading, if_neg last]
  rfl

end

/-- The converter's lines hold every value to 1023, so the operand is taken as it stands (R150, log entry 23). -/
theorem exec_conversionEnd {s : State} {value : Nat} (hvalue : value ≤ 1023) :
    exec (.conversionEnd value) s = .next (whileOnActing (takeConversion value) s) := by
  show Host.Outcome.next (whileOnActing (takeConversion (value % 1024)) s) = _
  rw [Nat.mod_eq_of_lt (Nat.lt_succ_of_le hvalue)]

/-! ### The hand-over of a strip (R149) -/

/-- A cut strip goes to the reject tray, whatever is then done with its reading (R117). -/
theorem routeCut_strip {s : State} {id : Nat} {u : PrintUnit} (blind : Bool) (hu : s.unit? id = some u)
    (strip : u.kind = .strip) : routeCut id blind s = stripHandOver id blind (rejectPrint s) := by
  simp only [routeCut, hu, if_pos strip]

section
variable {s : State} {id surface : Nat} {abandoned : Bool}

/-- A strip seen by its mark and not abandoned begins its conversions. -/
theorem stripHandOver_reads (out : s.cal.strip = .out surface id false) :
    stripHandOver id false s =
      { s with cal := { s.cal with strip := .reading surface id 1 [], filter := .baseRed } } := by
  simp [stripHandOver, out]

/-- A strip cut blind, or abandoned before its cut, is not read. -/
theorem stripHandOver_abandons {blind : Bool} (out : s.cal.strip = .out surface id abandoned)
    (unread : ¬(blind = false ∧ abandoned = false)) :
    stripHandOver id blind s = abandonCalibration surface (if blind = true then .blindCut else .spoiled)
      ((s.setStrip .none).releaseUnit id) := by
  cases blind
  · have habandoned : abandoned = true := by simpa using unread
    simp [stripHandOver, out, habandoned]
  · simp [stripHandOver, out]

end

/-- Settles O54: START_CAL's tests in their order, `queueStrip_eq`, WAIVE_CAL, the conversions and the hand-over. -/
theorem calibrationRunsItsCourse : Obligations.CalibrationRunsItsCourse := by
  refine ⟨fun h surface s calm => ?_, fun value s running hvalue => ⟨fun notReading => ?_, fun u id k values reading => ?_⟩,
    fun id surface u abandoned blind s hu strip out => ?_⟩
  · intro start about
    have refused {status : Status} (hd : decideStartCal surface s = (.answer status [], s)) :
        exec (.startCal h surface) s = .next (s.answered h start status []) :=
      exec_unchanged (c := .startCal h surface) rfl calm hd
    have busy_iff : (s.cal.strip ≠ .none ∨ s.stripAbout = true) ↔ (s.cal.strip ≠ .none ∨ about) :=
      or_congr_right (stripAbout_iff s)
    refine ⟨fun beyond => ⟨refused (decideStartCal_badValue beyond),
        exec_unchanged (c := .waiveCal h surface) rfl calm (decideWaiveCal_badValue beyond)⟩,
      fun within => ⟨fun bad => refused (decideStartCal_sheetBad within bad),
        fun good busy => refused (decideStartCal_wrongState within good (busy_iff.mpr busy)),
        fun good noStrip noAbout => ?_, ?_⟩⟩
    · have free : ¬(s.cal.strip ≠ .none ∨ s.stripAbout = true) :=
        fun busy => (busy_iff.mp busy).elim (fun started => started noStrip) noAbout
      refine ⟨fun full => refused (decideStartCal_full within good free full),
        fun room idle id hid hfree below => ?_⟩
      have lowest : s.queue.pool.findIdx? Option.isNone = some id := findIdx?_free.mpr ⟨hid, hfree, below⟩
      exact exec_startCal_answer calm
        ((decideStartCal_queues within good free room idle).trans (queueStrip_eq lowest surface))
    · exact congrArg Host.Outcome.next (serveActing_answer calm.accepts (decideWaiveCal_within within calm.noSignal))
  · exact exec_event_none (exec_conversionEnd hvalue) running (takeConversion_none notReading)
  · refine ⟨fun first more => ?_, fun last => ?_⟩
    · refine exec_event_calm (exec_conversionEnd hvalue) running ?_ rfl rfl
      rw [takeConversion_next reading more, filterOf_succ first more]
    · exact exec_event (exec_conversionEnd hvalue) running (takeConversion_last reading (by omega))
  · intro cut last
    have hout : (rejectPrint s).cal.strip = .out surface id abandoned := out
    rw [routeCut_strip blind hu strip]
    split
    · next read =>
      obtain ⟨rfl, rfl⟩ := read
      exact stripHandOver_reads hout
    · next unread => exact stripHandOver_abandons hout unread

end Sys2Proof.Machine
end

section
/-! The result of a strip: densities, errors, steps, and the balances that move (R151, R152; O55). -/

namespace Sys2Proof.Machine

/-! ### The figures of one channel -/

/-- A density is 0 when the grey reading is not below the base one (R151). -/
theorem density_eq (base grey gain : Nat) : density base grey gain =
    if base ≤ grey then 0 else min 400 ((2 * ((base - grey) * gain) + 256) / 512) := by
  split
  · next dark => simp [density, roundHalfUp, Nat.sub_eq_zero_of_le dark]
  · rfl

theorem density_le (base grey gain : Nat) : density base grey gain ≤ 400 := Nat.min_le_left ..

/-- Rounding half away from zero is rounding half up of the magnitude, with the sign kept (1.8). -/
theorem roundHalfAway_eq {numerator : Int} (divisor : Nat) (nonzero : numerator ≠ 0) :
    roundHalfAway numerator divisor =
      if numerator < 0 then -(roundHalfUp numerator.natAbs divisor : Int)
      else (roundHalfUp numerator.natAbs divisor : Int) := by
  unfold roundHalfAway
  split
  · next negative => rw [Int.sign_eq_neg_one_of_neg negative, neg_one_mul]
  · next nonneg => rw [Int.sign_eq_one_of_pos (by omega), one_mul]

/-- The steps a balance loses: none within the dead band, else the rounded quotient of the error (R152). -/
theorem channelResult_steps (cal : Sheet) (u c : Nat) (values : List Nat) :
    let e := (channelResult cal u c values).error
    (channelResult cal u c values).steps =
      if e.natAbs ≤ cal.deadBand then 0
      else if e < 0 then -(roundHalfUp e.natAbs cal.slope : Int) else (roundHalfUp e.natAbs cal.slope : Int) := by
  intro e
  show (if e.natAbs ≤ cal.deadBand then 0 else roundHalfAway e cal.slope) = _
  split
  · rfl
  · next moved => exact roundHalfAway_eq _ fun zero => moved (by simp [zero])

/-! ### Failure and acceptance (R152) -/

section
variable {u : Nat} {values : List Nat} {s : State} {x : Nat → ChannelResult}

theorem beyondTolerance_iff (cal : Sheet) :
    beyondTolerance cal (x 0) (x 1) (x 2) = true ↔ ∃ c < 3, cal.tolerance < (x c).error.natAbs := by
  simp only [beyondTolerance, Bool.or_eq_true, decide_eq_true_eq, Nat.exists_lt_succ_right, Nat.not_lt_zero, false_and,
    exists_false, false_or]

theorem writeBalances_same (same : ∀ c < 3, (x c).after = (x c).before) : writeBalances u (x 0) (x 1) (x 2) s = s :=
  if_pos ⟨same 0 (by omega), same 1 (by omega), same 2 (by omega)⟩

theorem writeBalances_moved (moved : ∃ c < 3, (x c).after ≠ (x c).before) :
    writeBalances u (x 0) (x 1) (x 2) s = (storeWrite .calibration (16 + 3 * u)
      [BitVec.ofInt 32 (x 0).after, BitVec.ofInt 32 (x 1).after, BitVec.ofInt 32 (x 2).after] s).2 := by
  obtain ⟨c, hc, differs⟩ := moved
  refine if_neg fun ⟨red, green, blue⟩ => differs ?_
  interval_cases c
  exacts [red, green, blue]

/-- The last result of a calibration that fails. -/
def State.failedResult (s : State) (values : List Nat) (x : Nat → ChannelResult) : LastResult :=
  { outcome := .failed, cause := none, time := s.shopTime, readings := some values
    densities := some (channelsOf (x 0) (x 1) (x 2) ChannelResult.density)
    errors := some (channelsOf (x 0) (x 1) (x 2) ChannelResult.error)
    steps := none, before := none, after := none, clamps := { r := false, g := false, b := false } }

/-- The last result of a calibration that is accepted. -/
def State.acceptedResult (s : State) (values : List Nat) (x : Nat → ChannelResult) : LastResult :=
  { outcome := .accepted, cause := none, time := s.shopTime, readings := some values
    densities := some (channelsOf (x 0) (x 1) (x 2) ChannelResult.density)
    errors := some (channelsOf (x 0) (x 1) (x 2) ChannelResult.error)
    steps := some (channelsOf (x 0) (x 1) (x 2) ChannelResult.steps)
    before := some (channelsOf (x 0) (x 1) (x 2) ChannelResult.before)
    after := some (channelsOf (x 0) (x 1) (x 2) ChannelResult.after)
    clamps := { r := (x 0).clamped, g := (x 1).clamped, b := (x 2).clamped } }

/-- The state after an accepted calibration, but for the write of its balances. -/
def State.accepted (s : State) (u : Nat) (values : List Nat) (x : Nat → ChannelResult) : State :=
  { s with
    queue := { s.queue with signal := s.queue.signal || (s.surface u).due }
    cal := { s.cal with
      strip := .none
      surfaces := s.cal.surfaces.set u
        { s.surface u with counter := 0, due := false, last := some (s.acceptedResult values x) } } }

variable (figures : ∀ c, channelResult s.store.calibration u c values = x c)
include figures

/-- With an error beyond the tolerance only the last result changes, and CAL_FAIL is raised. -/
theorem takeResult_failed (beyond : ∃ c < 3, s.store.calibration.tolerance < (x c).error.natAbs) :
    takeResult u values s = ((s.setStrip .none).setSurface u
      { s.surface u with last := some (s.failedResult values x) }).raise .calFail u := by
  simp only [takeResult, figures, if_pos ((beyondTolerance_iff _).mpr beyond)]
  rfl

/-- Otherwise the result is accepted, and only the write of the balances touches the store. -/
theorem takeResult_accepted (within : ¬∃ c < 3, s.store.calibration.tolerance < (x c).error.natAbs) :
    takeResult u values s = { s.accepted u values x with
      store := (writeBalances u (x 0) (x 1) (x 2) s).store } := by
  have hwrite : writeBalances u (x 0) (x 1) (x 2) (s.setStrip .none) =
      { s.setStrip .none with store := (writeBalances u (x 0) (x 1) (x 2) s).store } := by
    unfold writeBalances
    split <;> rfl
  simp only [takeResult, figures, if_neg (mt (beyondTolerance_iff _).mp within), signal_ite, hwrite]
  rfl

/-- An accepted result that moves no balance leaves the store alone. -/
theorem takeResult_kept (within : ¬∃ c < 3, s.store.calibration.tolerance < (x c).error.natAbs)
    (same : ∀ c < 3, (x c).after = (x c).before) : takeResult u values s = s.accepted u values x :=
  (takeResult_accepted figures within).trans (by rw [writeBalances_same same]; rfl)

/-- One that moves a balance begins one store write of the three. -/
theorem takeResult_moved (within : ¬∃ c < 3, s.store.calibration.tolerance < (x c).error.natAbs)
    (moved : ∃ c < 3, (x c).after ≠ (x c).before) : takeResult u values s = { s.accepted u values x with
      store := (storeWrite .calibration (16 + 3 * u)
        [BitVec.ofInt 32 (x 0).after, BitVec.ofInt 32 (x 1).after, BitVec.ofInt 32 (x 2).after] s).2.store } :=
  (takeResult_accepted figures within).trans (by rw [writeBalances_moved moved])

end

/-- Settles O55: one channel's figures (`density_eq`, `channelResult_steps`), then failure or acceptance. -/
theorem resultMovesTheBalances : Obligations.ResultMovesTheBalances := by
  intro u values s cal density error steps before after three acted time was beyond ended
  have hbound : ∀ c, density c ≤ 400 := fun c => (density_eq ..).symm.trans_le (density_le ..)
  have hdensity : ∀ c, (channelResult cal u c values).density = density c := fun c =>
    congrArg Int.ofNat (density_eq ..)
  have herror : ∀ c, (channelResult cal u c values).error = error c := fun c =>
    congrArg (· - (cal.value (32 + 3 * u + c) : Int)) (hdensity c)
  have hsteps : ∀ c, (channelResult cal u c values).steps = steps c := fun c => by
    rw [channelResult_steps, herror]
    rfl
  have hafter : ∀ c, (channelResult cal u c values).after = after c := fun c =>
    congrArg (fun n => clampInt (-40) 40 (before c - n)) (hsteps c)
  have figures : ∀ c, channelResult cal u c values =
      { density := density c, error := error c, steps := steps c, before := before c, after := after c
        clamped := acted c } := fun c => by
    rw [← show (channelResult cal u c values).clamped = acted c from
      congrArg₂ (fun a n => decide (a ≠ before c - n)) (hafter c) (hsteps c), ← hdensity, ← herror, ← hsteps, ← hafter]
    rfl
  exact ⟨fun c _ => hbound c, takeResult_failed figures,
    fun accepted => ⟨takeResult_kept figures accepted, takeResult_moved figures accepted⟩⟩

end Sys2Proof.Machine
end

section
/-! Request bodies: the bytes that a station writes for an item are read as that item (R158, R163, R167; O8). -/

namespace Sys2Proof.Machine

/-- Bytes that spell an item whatever follows them: reading takes them all and leaves the rest. -/
def Spells {α : Type} (item : Reads α) (bytes : List Byte) (a : α) : Prop :=
  ∀ rest, item (bytes ++ rest) = some (a, rest)

/-! ### Items of a fixed length -/

theorem spells_readByte (b : Byte) : Spells readByte [b] b := fun _ => rfl

theorem spells_read8 {n : Nat} (h : fits8 n = true) : Spells read8 (item8 n) n := fun rest => by
  have hn : n < 256 := of_decide_eq_true h
  simp [item8, read8, Nat.mod_eq_of_lt hn]

theorem spells_read16 {n : Nat} (h : fits16 n = true) : Spells read16 (item16 n) n := fun rest => by
  have hn : n < 65536 := of_decide_eq_true h
  simp only [item16, read16, List.cons_append, List.nil_append, BitVec.toNat_ofNat, Option.some.injEq, Prod.mk.injEq,
    and_true]
  omega

theorem spells_read32 {n : Nat} (h : fits32 n = true) : Spells read32 (item32 n) n := fun rest => by
  have hn : n < 4294967296 := of_decide_eq_true h
  simp only [item32, read32, List.cons_append, List.nil_append, BitVec.toNat_ofNat, Option.some.injEq, Prod.mk.injEq,
    and_true]
  omega

theorem spells_readWord (w : Word32) : Spells readWord (itemWord w) w := fun rest => by
  have hw : fits32 w.toNat = true := decide_eq_true w.isLt
  simp [readWord, itemWord, spells_read32 hw rest]

theorem spells_readInt8 {n : Int} (h : fitsInt8 n = true) : Spells readInt8 (itemInt8 n) n := fun rest => by
  obtain ⟨low, high⟩ : -128 ≤ n ∧ n ≤ 127 := by simpa [fitsInt8] using h
  have hn : (BitVec.ofInt 8 n).toInt = n := by
    rw [BitVec.toInt_ofInt]
    exact Int.bmod_eq_of_le (by omega) (by omega)
  simp [itemInt8, readInt8, hn]

theorem spells_readFlag (b : Bool) : Spells readFlag (itemFlag b) b := fun _ => by cases b <;> rfl

/-! ### Items made of items -/

section
variable {α β : Type} {first item : Reads α} {second : Reads β}

theorem Spells.pair {x y : List Byte} {a : α} {b : β} (ha : Spells first x a) (hb : Spells second y b) :
    Spells (readPair first second) (x ++ y) (a, b) := fun rest => by
  simp [readPair, List.append_assoc, ha (y ++ rest), hb rest]

theorem spells_readOption {code : α → List Byte} {o : Option α} (h : ∀ a ∈ o, Spells item (code a) a) :
    Spells (readOption item) (itemOption code o) o := fun rest => by
  cases o with
  | none => rfl
  | some a =>
    have hflag : readFlag (item8 1 ++ (code a ++ rest)) = some (true, code a ++ rest) := rfl
    simp [readOption, itemOption, hflag, h a rfl rest]

theorem spells_readMany {code : α → List Byte} {l : List α} (h : ∀ a ∈ l, Spells item (code a) a) :
    Spells (readMany item l.length) (l.flatMap code) l := by
  induction l with
  | nil => exact fun _ => rfl
  | cons a l ih =>
    intro rest
    have ha := h a List.mem_cons_self (l.flatMap code ++ rest)
    have hl := ih (fun b hb => h b (List.mem_cons_of_mem a hb)) rest
    simp [readMany, List.append_assoc, ha, hl]

theorem spells_readList8 {code : α → List Byte} {l : List α} (hlen : fits8 l.length = true)
    (h : ∀ a ∈ l, Spells item (code a) a) : Spells (readList8 item) (itemList8 code l) l := fun rest => by
  simp [readList8, itemList8, List.append_assoc, spells_read8 hlen _, spells_readMany h rest]

/-- A body that spells an item, with nothing after it, fits the item exactly (R163). -/
theorem whole_spells {body : List Byte} {a : α} (h : Spells item body a) (f : α → β) :
    whole item f body = some (f a) := by
  have hbody := h []
  rw [List.append_nil] at hbody
  simp [whole, hbody]

end

/-! ### The items that several requests share -/

theorem spells_tag {t : List Byte} (h : fits8 t.length = true) : Spells (readList8 readByte) (itemTag t) t := by
  have hbytes : t.flatMap (fun b => [b]) = t := by simp
  have hlist := spells_readList8 h fun b (_ : b ∈ t) => spells_readByte b
  rwa [itemList8, hbytes] at hlist

theorem spells_readLine {l : LineItem} (h : l.fits = true) : Spells readLine (itemLine l) l := fun rest => by
  obtain ⟨⟨⟨⟨⟨⟨⟨size, surface⟩, quantity⟩, border⟩, d⟩, c⟩, m⟩, y⟩ := by
    simpa only [LineItem.fits, Bool.and_eq_true] using h
  have hbytes : itemLine l = [l.size, l.surface, l.quantity, l.border].flatMap item8
      ++ ([l.d, l.c, l.m, l.y].flatMap itemInt8 ++ itemWord l.handle) := rfl
  have hnat : ∀ n ∈ [l.size, l.surface, l.quantity, l.border], Spells read8 (item8 n) n := by
    simp [spells_read8, size, surface, quantity, border]
  have hint : ∀ n ∈ [l.d, l.c, l.m, l.y], Spells readInt8 (itemInt8 n) n := by
    simp [spells_readInt8, d, c, m, y]
  have hpair : readPair (readMany read8 4) (readPair (readMany readInt8 4) readWord) (itemLine l ++ rest) =
      some (([l.size, l.surface, l.quantity, l.border], [l.d, l.c, l.m, l.y], l.handle), rest) :=
    hbytes ▸ (spells_readMany hnat).pair ((spells_readMany hint).pair (spells_readWord l.handle)) rest
  simp only [readLine, hpair]

theorem spells_readSelector {sel : Selector} (h : sel.fits = true) : Spells readSelector (itemSelector sel) sel :=
  fun rest => by
  cases sel with
  | tag t =>
    have hkind : read8 (item8 0 ++ (itemTag t ++ rest)) = some (0, itemTag t ++ rest) := rfl
    simp [readSelector, itemSelector, hkind, spells_tag h rest]
  | state n =>
    have hkind : read8 (item8 1 ++ (item8 n ++ rest)) = some (1, item8 n ++ rest) := rfl
    simp [readSelector, itemSelector, hkind, spells_read8 h rest]
  | owner n =>
    have hkind : read8 (item8 2 ++ (item8 n ++ rest)) = some (2, item8 n ++ rest) := rfl
    simp [readSelector, itemSelector, hkind, spells_read8 h rest]

/-! ### The requests of the catalogue (R167) -/

/-- The body of a request, its items in the order in which they are read. -/
theorem readItems_requestBody {r : Request} (fits : r.itemsFit = true) (spelled : ∀ code body, r ≠ .unspelled code body) :
    readItems (requestCode r) (requestBody r) = some r := by
  have fitsOption8 {o : Option Nat} (h : o.all fits8 = true) : Spells (readOption read8) (itemOption item8 o) o :=
    spells_readOption fun n hn => spells_read8 ((Option.all_eq_true _ _).mp h n hn)
  have fitsOption16 {o : Option Nat} (h : o.all fits16 = true) : Spells (readOption read16) (itemOption item16 o) o :=
    spells_readOption fun n hn => spells_read16 ((Option.all_eq_true _ _).mp h n hn)
  cases r with
  | readClock | halt | resume | selectMagazine | lutSwitch | readEngine | readBins | reset | readLink | readViolation
  | clearViolation | readNotices => rfl
  | submit | withdraw | cancel | readOrder | retryFault | promote | collect | quote =>
    exact whole_spells (spells_read16 fits) _
  | readTrain | emptyTrays | startCal | waiveCal | readCal | clearNotice | releaseDamaged =>
    exact whole_spells (spells_read8 fits) _
  | openOrder cls promise tag =>
    simp only [Request.itemsFit, Bool.and_eq_true] at fits
    obtain ⟨⟨hcls, hpromise⟩, htag⟩ := fits
    have htags : Spells (readOption (readList8 readByte)) (itemOption itemTag tag) tag :=
      spells_readOption fun t ht => spells_tag ((Option.all_eq_true _ _).mp htag t ht)
    have hbody := (spells_read8 hcls).pair ((fitsOption16 hpromise).pair htags)
    rw [← List.append_assoc] at hbody
    exact whole_spells hbody _
  | addLine n line =>
    obtain ⟨hn, hline⟩ := Bool.and_eq_true_iff.mp fits
    exact whole_spells ((spells_read16 hn).pair (spells_readLine hline)) fun (n, line) => Request.addLine n line
  | changeLine n position line =>
    simp only [Request.itemsFit, Bool.and_eq_true] at fits
    obtain ⟨⟨hn, hposition⟩, hline⟩ := fits
    have hbody := (spells_read16 hn).pair ((spells_read8 hposition).pair (spells_readLine hline))
    rw [← List.append_assoc] at hbody
    exact whole_spells hbody fun (n, position, line) => Request.changeLine n position line
  | dropLine n position =>
    obtain ⟨hn, hposition⟩ := Bool.and_eq_true_iff.mp fits
    exact whole_spells ((spells_read16 hn).pair (spells_read8 hposition)) fun (n, position) => Request.dropLine n position
  | findOrders sel start =>
    obtain ⟨hsel, hstart⟩ := Bool.and_eq_true_iff.mp fits
    exact whole_spells ((spells_readSelector hsel).pair (spells_read16 hstart)) _
  | setClock minute second =>
    obtain ⟨hminute, hsecond⟩ := Bool.and_eq_true_iff.mp fits
    exact whole_spells ((spells_read16 hminute).pair (spells_read8 hsecond)) fun (minute, second) => Request.setClock minute second
  | readQueue start number =>
    obtain ⟨hstart, hnumber⟩ := Bool.and_eq_true_iff.mp fits
    exact whole_spells ((spells_read16 hstart).pair (fitsOption16 hnumber)) _
  | loadMagazine magazine metres =>
    obtain ⟨hmagazine, hmetres⟩ := Bool.and_eq_true_iff.mp fits
    exact whole_spells ((spells_read8 hmagazine).pair (spells_read16 hmetres)) fun (m, metres) => Request.loadMagazine m metres
  | lutWrite bank channel start levels =>
    simp only [Request.itemsFit, Bool.and_eq_true] at fits
    obtain ⟨⟨⟨⟨hbank, hchannel⟩, hstart⟩, hlen⟩, hlevels⟩ := fits
    have hlist : Spells (readList8 read16) (itemList8 item16 levels) levels :=
      spells_readList8 hlen fun n hn => spells_read16 (List.all_eq_true.mp hlevels n hn)
    have hbody := (spells_read8 hbank).pair ((spells_read8 hchannel).pair ((spells_read8 hstart).pair hlist))
    rw [← List.append_assoc, ← List.append_assoc] at hbody
    exact whole_spells hbody _
  | clearFault counts => exact whole_spells (spells_readOption fun b _ => spells_readFlag b) _
  | pay n amount =>
    obtain ⟨hn, hamount⟩ := Bool.and_eq_true_iff.mp fits
    exact whole_spells ((spells_read16 hn).pair (spells_read32 hamount)) fun (n, amount) => Request.pay n amount
  | linkSetup address lab =>
    obtain ⟨haddress, hlab⟩ := Bool.and_eq_true_iff.mp fits
    exact whole_spells ((fitsOption8 haddress).pair (fitsOption8 hlab)) _
  | setNoticeEnables mask =>
    have hmask : fits16 mask.toNat = true := decide_eq_true mask.isLt
    refine (whole_spells (spells_read16 hmask) fun n => Request.setNoticeEnables (BitVec.ofNat 16 n)).trans ?_
    rw [BitVec.ofNat_toNat, BitVec.setWidth_eq]
  | storeRead sheet start count =>
    simp only [Request.itemsFit, Bool.and_eq_true] at fits
    obtain ⟨⟨hsheet, hstart⟩, hcount⟩ := fits
    have hbody := (spells_read8 hsheet).pair ((spells_read8 hstart).pair (spells_read8 hcount))
    rw [← List.append_assoc] at hbody
    exact whole_spells hbody fun (sheet, start, count) => Request.storeRead sheet start count
  | storeWrite sheet start values =>
    simp only [Request.itemsFit, Bool.and_eq_true] at fits
    obtain ⟨⟨hsheet, hstart⟩, hlen⟩ := fits
    have hbody := (spells_read8 hsheet).pair ((spells_read8 hstart).pair
      (spells_readList8 hlen fun w _ => spells_readWord w))
    rw [← List.append_assoc] at hbody
    exact whole_spells hbody _
  | unspelled code body => exact absurd rfl (spelled code body)

/-- What a well-formed request's body is read as, an unspelled one by its length alone (R163, log entry 8). -/
theorem readRequest_requestBody {r : Request} (wf : r.wf = true) : readRequest (requestCode r) (requestBody r) = some r := by
  obtain ⟨fits, -⟩ := Bool.and_eq_true_iff.mp wf
  by_cases unspelled : ∃ code body, r = .unspelled code body
  · obtain ⟨code, body, rfl⟩ := unspelled
    obtain ⟨unread, fit⟩ := Bool.and_eq_true_iff.mp fits
    simp [readRequest, requestCode, requestBody, Option.isNone_iff_eq_none.mp unread, fit]
  · push Not at unspelled
    simp [readRequest, readItems_requestBody fits unspelled]

/-- Settles O8: each item's bytes are read as that item, whatever follows them (`Spells`). -/
theorem requestBodyRoundTrip : Obligations.RequestBodyRoundTrip := fun _ wf =>
  have read := readRequest_requestBody wf
  ⟨readRequest_isRequestCode read, read⟩

end Sys2Proof.Machine
end

section
/-! The lab station's frame, once taken, is its request's row (R162, R163, R168, log entry 9; O12). -/

namespace Sys2Proof.Machine

/-- An operation that leaves the queue and the Order Table, and so what they owe the end of the step (R13, R48). -/
def OwesAsBefore (s t : State) : Prop := t.queue = s.queue ∧ t.orders = s.orders

theorem OwesAsBefore.refl (s : State) : OwesAsBefore s s := ⟨rfl, rfl⟩

theorem OwesAsBefore.ite {s : State} {c : Prop} [Decidable c] {x y : Reply × State} (hx : OwesAsBefore s x.2)
    (hy : OwesAsBefore s y.2) : OwesAsBefore s (if c then x else y).2 := by
  split
  · exact hx
  · exact hy

theorem decideReadEngine_owes (s : State) : OwesAsBefore s (decideReadEngine s).2 := by
  dsimp only [decideReadEngine, okay]
  split <;> exact ⟨rfl, rfl⟩

theorem decideClearNotice_owes (kind : Nat) (s : State) : OwesAsBefore s (decideClearNotice kind s).2 := by
  unfold decideClearNotice
  split
  · exact .ite (.refl s) ⟨rfl, rfl⟩
  · exact .refl s

theorem decideStoreRead_owes (sheet start count : Nat) (s : State) :
    OwesAsBefore s (decideStoreRead sheet start count s).2 := by
  unfold decideStoreRead
  split
  · exact .refl s
  · exact .ite (.refl s) (.refl s)

theorem decideStoreWrite_owes (sheet start : Nat) (values : List Word32) (s : State) :
    OwesAsBefore s (decideStoreWrite sheet start values s).2 := by
  unfold decideStoreWrite
  split
  · exact .refl s
  · exact .ite (.refl s) ⟨rfl, rfl⟩

section
variable {c : Instr} {h : Header} {r : Request} {s : State}

/-- A decision and its conclusion owe the end of the step what the decision does. -/
theorem conclude_owes (queued : Nat) {x : Reply × State} (owes : OwesAsBefore s x.2) :
    OwesAsBefore s (conclude h false r queued x) := by
  obtain ⟨reply, t⟩ := x
  cases reply <;> exact owes

/-- The row of a request: its block's decision, concluded, and the end of the step, which a row that owes nothing
leaves out (log entry 10). -/
theorem exec_concludes (hc : c.request? = some (h, r)) (calm : Calm s) :
    exec c s = .next (settle (conclude h false r s.link.queue.length
      (decideRequest h.source s.link.queue.length false r s))) := by
  generalize hd : decideRequest h.source s.link.queue.length false r = d
  have acts (he : exec c s = .next (serveActing h r d s)) :
      exec c s = .next (settle (conclude h false r s.link.queue.length (d s))) := by
    rw [he, serveActing_accepts calm.accepts]
  have serves (he : exec c s = .next (serve h r d s)) (owes : OwesAsBefore s (d s).2) :
      exec c s = .next (settle (conclude h false r s.link.queue.length (d s))) := by
    obtain ⟨queue, orders⟩ := conclude_owes (h := h) (r := r) s.link.queue.length owes
    rw [he, serve_accepts calm.accepts, settle_calm (queue ▸ calm.noSignal) (orders ▸ calm.noTrial)]
  cases c with
  | openOrder | addLine | changeLine | dropLine | submit | withdraw | cancel | readOrder | findOrders | setClock
  | retryFault | promote | readQueue | resume | selectMagazine | loadMagazine | clearFault | collect | quote | pay
  | startCal | waiveCal | releaseDamaged => cases hc; exact acts (hd ▸ rfl)
  | readClock | halt | lutSwitch | readBins | reset | readViolation | clearViolation | readNotices
  | setNoticeEnables => cases hc; exact serves (hd ▸ rfl) (hd ▸ ⟨rfl, rfl⟩)
  | readEngine => cases hc; exact serves (hd ▸ rfl) (hd ▸ decideReadEngine_owes s)
  | clearNotice => cases hc; exact serves (hd ▸ rfl) (hd ▸ decideClearNotice_owes _ s)
  | storeRead => cases hc; exact serves (hd ▸ rfl) (hd ▸ decideStoreRead_owes _ _ _ s)
  | storeWrite => cases hc; exact serves (hd ▸ rfl) (hd ▸ decideStoreWrite_owes _ _ _ s)
  | emptyTrays => cases hc; exact serves (hd ▸ rfl) (hd ▸ .ite (.refl s) ⟨rfl, rfl⟩)
  | readLink => cases hc; exact serves (hd ▸ rfl) (hd ▸ .ite (.refl s) (.refl s))
  | readTrain | readCal => cases hc; exact serves (hd ▸ rfl) (hd ▸ .ite (.refl s) (.ite (.refl s) (.refl s)))
  | lutWrite | linkSetup => cases hc; exact serves (hd ▸ rfl) (hd ▸ .ite (.refl s) (.ite (.refl s) ⟨rfl, rfl⟩))
  | _ => cases hc

end

/-- Settles O12: the frame's body spells the request, the lab station passes the rights test, and what is left is the
row's decision and the end of the step (`exec_concludes`). -/
theorem takenFrameActsAsItsRow : Obligations.TakenFrameActsAsItsRow := by
  intro c h r rest s hc wf calm setUp lab hq
  have taken : Calm (s.frameTaken rest) := ⟨calm.accepts, calm.noSignal, calm.noTrial⟩
  rw [exec_requestTaken calm hq ((frame_passes (s := s.frameTaken rest) setUp (readRequest_requestBody wf)
    (absurd · Bool.false_ne_true)).trans
    (passRights_passes (.inl lab)))]
  exact (exec_concludes hc taken).symm

end Sys2Proof.Machine
end

section
/-! Frames on the line: the frame check and escapes (R157, R159; O7). -/

namespace Sys2Proof.Machine

/-! ### The check register (R159) -/

/-- The register's shift is linear over exclusive or. -/
theorem crcShift_xor (a b : Crc) : crcShift (a ^^^ b) = crcShift a ^^^ crcShift b := by
  have hbit : (a ^^^ b).getLsbD 0 = (a.getLsbD 0 ^^ b.getLsbD 0) := BitVec.getLsbD_xor
  unfold crcShift
  rw [hbit, BitVec.ushiftRight_xor_distrib]
  cases a.getLsbD 0 <;> cases b.getLsbD 0
  · rfl
  · exact BitVec.xor_assoc ..
  · simp only [Bool.xor_false, if_true, Bool.false_eq_true, if_false]
    ac_rfl
  · have hpairs : a >>> 1 ^^^ 0x8408#16 ^^^ (b >>> 1 ^^^ 0x8408#16) =
        a >>> 1 ^^^ b >>> 1 ^^^ (0x8408#16 ^^^ 0x8408#16) := by ac_rfl
    simp [hpairs]

/-- The shift puts bit 0 into bit 15, so no two registers shift to the same one. -/
theorem crcShift_injective : Function.Injective crcShift := by
  intro a b h
  have htop : ∀ r : Crc, (crcShift r).getLsbD 15 = r.getLsbD 0 := fun r => by
    unfold crcShift
    cases hr : r.getLsbD 0 <;> simp
  have hbit : a.getLsbD 0 = b.getLsbD 0 := by rw [← htop a, ← htop b, h]
  have hrest : a >>> 1 = b >>> 1 := by
    unfold crcShift at h
    rw [hbit] at h
    split at h
    · exact (BitVec.xor_left_inj _).mp h
    · exact h
  refine BitVec.eq_of_getLsbD_eq fun i _ => ?_
  cases i with
  | zero => exact hbit
  | succ i => simpa [Nat.add_comm] using congrArg (fun r : Crc => r.getLsbD i) hrest

/-- A shift of bits that have room above them only moves them down. -/
theorem crcShift_shiftLeft {x : Crc} (small : x.toNat < 256) {m : Nat} (h : m < 8) :
    crcShift (x <<< (m + 1)) = x <<< m := by
  have hclear : (x <<< (m + 1)).getLsbD 0 = false := by simp
  have hmul : x.toNat * 2 ^ m ≤ 255 * 2 ^ 7 :=
    Nat.mul_le_mul (by omega) (Nat.pow_le_pow_right (by decide) (by omega))
  unfold crcShift
  rw [hclear, if_neg Bool.false_ne_true]
  refine BitVec.eq_of_toNat_eq ?_
  simp only [BitVec.toNat_ushiftRight, BitVec.toNat_shiftLeft, Nat.shiftLeft_eq, Nat.shiftRight_eq_div_pow, Nat.pow_succ,
    ← Nat.mul_assoc]
  omega

theorem crcShifts_xor (n : Nat) (a b : Crc) : crcShift^[n] (a ^^^ b) = crcShift^[n] a ^^^ crcShift^[n] b := by
  induction n generalizing a b with
  | zero => rfl
  | succ n ih => simp only [Function.iterate_succ_apply, crcShift_xor, ih]

theorem crcShifts_shiftLeft {x : Crc} (small : x.toNat < 256) {n : Nat} (h : n ≤ 8) : crcShift^[n] (x <<< n) = x := by
  induction n with
  | zero => simp
  | succ n ih => rw [Function.iterate_succ_apply, crcShift_shiftLeft small (by omega), ih (by omega)]

/-- A byte's eight shifts. -/
theorem crcByte_eq (r : Crc) (b : Byte) : crcByte r b = crcShift^[8] (r ^^^ b.setWidth 16) := rfl

/-- The register and the byte each decide the register after it. -/
theorem crcByte_inj {q r : Crc} {b c : Byte} (h : crcByte q b = crcByte r c) : q ^^^ b.setWidth 16 = r ^^^ c.setWidth 16 :=
  crcShift_injective.iterate 8 h

theorem crcByte_left_inj {q r : Crc} {b : Byte} : crcByte q b = crcByte r b ↔ q = r :=
  ⟨fun h => (BitVec.xor_left_inj _).mp (crcByte_inj h), fun h => h ▸ rfl⟩

theorem crcByte_right_inj {r : Crc} {b c : Byte} : crcByte r b = crcByte r c ↔ b = c := by
  refine ⟨fun h => ?_, fun h => h ▸ rfl⟩
  have hwide : b.setWidth 16 = c.setWidth 16 := (BitVec.xor_right_inj _).mp (crcByte_inj h)
  simpa using congrArg (BitVec.setWidth 8) hwide

/-- Bytes received alike keep different registers different. -/
theorem foldl_crcByte_inj (bytes : List Byte) {q r : Crc} : bytes.foldl crcByte q = bytes.foldl crcByte r ↔ q = r := by
  induction bytes generalizing q r with
  | nil => rfl
  | cons b bytes ih => exact ih.trans crcByte_left_inj

/-! ### The check closes its frame (R159) -/

/-- The high byte of the register. -/
def crcHigh (r : Crc) : Crc := (r.extractLsb' 8 8).setWidth 16

theorem ones_getElem {i : Nat} (hi : i < 16) : (0xFF#16)[i] = decide (i < 8) :=
  (BitVec.getElem_setWidth 16 (BitVec.allOnes 8) i hi).trans BitVec.getLsbD_allOnes

/-- The complement of the low byte leaves all ones below the high byte. -/
theorem xor_checkLow (r : Crc) : r ^^^ ((~~~r).extractLsb' 0 8).setWidth 16 = crcHigh r <<< 8 ^^^ 0xFF#16 := by
  refine BitVec.eq_of_getLsbD_eq fun i hi => ?_
  by_cases h8 : i < 8
  · simp [crcHigh, BitVec.getLsbD_extractLsb', ones_getElem hi, h8, hi]
  · have hwithin : i - 8 < 8 := by omega
    simp [crcHigh, BitVec.getLsbD_extractLsb', ones_getElem hi, h8, hi, hwithin, Nat.add_sub_cancel' (Nat.le_of_not_lt h8)]

/-- The high byte and its complement make all ones. -/
theorem xor_checkHigh (r : Crc) : crcHigh r ^^^ ((~~~r).extractLsb' 8 8).setWidth 16 = 0xFF#16 := by
  refine BitVec.eq_of_getLsbD_eq fun i hi => ?_
  by_cases h8 : i < 8
  · have hwithin : ¬16 ≤ 8 + i := by omega
    simp [crcHigh, ones_getElem hi, h8, hi, hwithin]
  · simp [crcHigh, ones_getElem hi, h8, hi]

/-- The two bytes of the check bring any register to F0B8 hex (R159). -/
theorem crcByte_check (r : Crc) :
    crcByte (crcByte r ((~~~r).extractLsb' 0 8)) ((~~~r).extractLsb' 8 8) = 0xF0B8#16 := by
  have small : (crcHigh r).toNat < 256 := by
    have := (r.extractLsb' 8 8).isLt
    simp only [crcHigh, BitVec.toNat_setWidth]
    omega
  have hlow : crcByte r ((~~~r).extractLsb' 0 8) = crcHigh r ^^^ crcShift^[8] 0xFF#16 := by
    rw [crcByte_eq, xor_checkLow, crcShifts_xor, crcShifts_shiftLeft small le_rfl]
  calc crcByte (crcByte r ((~~~r).extractLsb' 0 8)) ((~~~r).extractLsb' 8 8)
      = crcShift^[8] (crcHigh r ^^^ ((~~~r).extractLsb' 8 8).setWidth 16 ^^^ crcShift^[8] 0xFF#16) := by
        rw [hlow, crcByte_eq, BitVec.xor_assoc, BitVec.xor_comm (crcShift^[8] _), ← BitVec.xor_assoc]
    _ = crcShift^[8] (0xFF#16 ^^^ crcShift^[8] 0xFF#16) := by rw [xor_checkHigh]
    _ = 0xF0B8#16 := by decide +kernel

/-- A frame closed with its check is good at the receiver (R159, R160). -/
theorem crc_checkBytes (bytes : List Byte) : crc (bytes ++ checkBytes bytes) = 0xF0B8#16 := by
  rw [crc, List.foldl_append]
  exact crcByte_check (crc bytes)

/-! ### Escapes (R157) -/

/-- A byte as it is sent. -/
theorem escape_cons (b : Byte) (bytes : List Byte) : escape (b :: bytes) =
    (if b = marker ∨ b = escapeByte then [escapeByte, b ^^^ 0x20#8] else [b]) ++ escape bytes := rfl

theorem escape_eq_nil {bytes : List Byte} : escape bytes = [] ↔ bytes = [] := by
  cases bytes with
  | nil => exact iff_of_true rfl rfl
  | cons b bytes => rw [escape_cons]; split <;> simp

/-- A plain byte is taken as it is. -/
theorem unescape_cons {b : Byte} (plain : b ≠ escapeByte) (line : List Byte) :
    unescape (b :: line) = (unescape line).map (b :: ·) := by
  cases line with
  | nil => exact if_neg plain
  | cons c line => exact if_neg plain

/-- An escape gives back the byte after it with its bit changed. -/
theorem unescape_escapeByte (c : Byte) (line : List Byte) :
    unescape (escapeByte :: c :: line) = (unescape line).map ((c ^^^ 0x20#8) :: ·) :=
  if_pos rfl

/-- Removing the escapes gives back what was escaped, whatever follows it. -/
theorem unescape_escape_append (bytes line : List Byte) :
    unescape (escape bytes ++ line) = (unescape line).map (bytes ++ ·) := by
  induction bytes with
  | nil => simp [escape]
  | cons b bytes ih =>
    rw [escape_cons]
    split
    · have hback : b ^^^ 0x20#8 ^^^ 0x20#8 = b := by simp
      refine (unescape_escapeByte _ (escape bytes ++ line)).trans ?_
      rw [ih, hback, Option.map_map]
      rfl
    · next plain =>
      refine (unescape_cons (fun h => plain (.inr h)) (escape bytes ++ line)).trans ?_
      rw [ih, Option.map_map]
      rfl

theorem unescape_escape (bytes : List Byte) : unescape (escape bytes) = some bytes := by
  simpa [unescape] using unescape_escape_append bytes []

theorem marker_notMem_escape (bytes : List Byte) : marker ∉ escape bytes := by
  induction bytes with
  | nil => exact List.not_mem_nil
  | cons b bytes ih =>
    rw [escape_cons, List.mem_append]
    refine not_or.mpr ⟨?_, ih⟩
    split
    · next special => rcases special with rfl | rfl <;> decide
    · next plain => simpa [eq_comm] using fun h => plain (.inl h)

/-- Settles O7: the check by the shift's linearity (`crcByte_check`), an error by its being one to one. -/
theorem frameCheckCatchesErrors : Obligations.FrameCheckCatchesErrors := by
  refine ⟨⟨crc_checkBytes, fun before after b c differ same => differ ?_⟩,
    fun bytes => ⟨marker_notMem_escape bytes, unescape_escape bytes⟩⟩
  simp only [crc, List.foldl_append, List.foldl_cons] at same
  exact crcByte_right_inj.mp ((foldl_crcByte_inj after).mp same)

end Sys2Proof.Machine
end

section
/-! Frames received: the six tests of a frame, the receive queue and the line's events (R156, R157, R160, R161; O9 to
O11). -/

namespace Sys2Proof.Machine

/-! ### The six tests (R160) -/

/-- An address byte that is not the broadcast's. -/
theorem address_ne_broadcast {d : Byte} : d ≠ 0xFF#8 ↔ d.toNat ≠ 255 :=
  not_congr ⟨fun h => h ▸ rfl, fun h => BitVec.eq_of_toNat_eq h⟩

theorem judge_length {address : Nat} {bytes : List Byte} (bad : bytes.length < 7 ∨ 247 < bytes.length) :
    judge address bytes = .badForm := if_pos bad

theorem judge_check {address : Nat} {bytes : List Byte} (long : 7 ≤ bytes.length) (short : bytes.length ≤ 247)
    (wrong : crc bytes ≠ 0xF0B8#16) : judge address bytes = .badCheck :=
  (if_neg (by omega)).trans (if_pos wrong)

/-- A frame of good length and check is judged by its five leading bytes, in the order of the tests. -/
theorem judge_fields {address : Nat} {bytes : List Byte} {d source code tag length : Byte} {rest : List Byte}
    (fields : bytes = d :: source :: code :: tag :: length :: rest) (long : 7 ≤ bytes.length)
    (short : bytes.length ≤ 247) (good : crc bytes = 0xF0B8#16) :
    judge address bytes =
      if d.toNat ≠ address ∧ d.toNat ≠ 255 then .otherAddress
      else if length.toNat + 7 ≠ bytes.length then .badForm
      else if source.toNat = 0 ∨ 31 < source.toNat then .badSource
      else if 128 ≤ code.toNat then .badForm
      else .accepted { broadcast := decide (d.toNat = 255), source := source.toNat
                       code := code.toNat, tag, body := rest.take length.toNat } := by
  have broadcast : (d == 0xFF#8) = decide (d.toNat = 255) := by
    rw [Bool.eq_iff_iff, beq_iff_eq, decide_eq_true_iff]
    exact not_iff_not.mp address_ne_broadcast
  unfold judge
  rw [if_neg (by omega), if_neg (not_not.mpr good), fields]
  simp only [address_ne_broadcast, broadcast]

/-! ### The closing marker (R157, R160, R161) -/

section
variable {line : List Byte} {s : State} {k : LinkController}

theorem takeMarker_hunt (hunt : k.inFrame = false) : takeMarker line k = { k with inFrame := true } := by
  simp [takeMarker, hunt]

theorem takeMarker_empty (gathering : k.inFrame = true) : takeMarker [] k = k := if_pos gathering

theorem takeMarker_closes (gathering : k.inFrame = true) (run : line ≠ []) : takeMarker line k = closeFrame line k := by
  simp [takeMarker, gathering, run]

theorem closeFrame_aborted (aborted : unescape line = none) : closeFrame line k = countBadForm k := by
  simp [closeFrame, aborted]

/-- What the receiver does with a frame by its verdict (R160, R161). -/
def LinkController.judged (k : LinkController) : Verdict → LinkController
  | .badForm => countBadForm k
  | .badCheck => { k with badCheck := satUp k.badCheck 65535 }
  | .otherAddress => k
  | .badSource => { k with badSource := satUp k.badSource 65535 }
  | .accepted f => receiveFrame f k

theorem closeFrame_judged {bytes : List Byte} (read : unescape line = some bytes) :
    closeFrame line k = k.judged (judge k.address bytes) := by
  rw [closeFrame, read]
  dsimp only
  cases judge k.address bytes <;> rfl

/-- FRAME_RECEIVED changes the link alone. -/
theorem exec_frameReceived (on : s.power = .on) {k : LinkController} (taken : takeMarker line s.link = k) :
    exec (.frameReceived line) s = .next { s with link := k } :=
  congrArg Host.Outcome.next ((if_pos on).trans (congrArg (fun k => { s with link := k }) taken))

end

/-- Settles O10: the verdict by `judge_fields`, and what the receiver does with it by `closeFrame_judged`. -/
theorem frameTestsAreOrdered : Obligations.FrameTestsAreOrdered := by
  refine ⟨fun address bytes => ⟨judge_length, judge_check, fun d source code tag length rest => judge_fields⟩,
    fun bytes => ?_, fun line s on => ?_⟩
  · rw [unescape_escape_append]
    rfl
  · intro k leaves badForm
    have leave {k1 : LinkController} (h : takeMarker line k = k1) : leaves k1 := exec_frameReceived on h
    refine ⟨fun hunt => leave (takeMarker_hunt hunt), ?_, fun gathering run => ?_⟩
    · rintro gathering rfl
      exact leave (takeMarker_empty gathering)
    have closes := takeMarker_closes (line := line) gathering run
    refine ⟨fun aborted => leave (closes.trans (closeFrame_aborted aborted)), fun bytes read => ?_⟩
    have judged {v : Verdict} (h : judge k.address bytes = v) : takeMarker line k = k.judged v :=
      closes.trans ((closeFrame_judged read).trans (congrArg k.judged h))
    exact ⟨fun h => leave (judged h), fun h => leave (judged h), fun h => leave (judged h), fun h => leave (judged h),
      fun f h => leave (judged h)⟩

/-! ### A well-formed request's frame (R158, R161) -/

/-- A request's frame: five leading bytes, the body, and two bytes of check (R158, R159). -/
theorem requestFrame_fields (destination source : Nat) (tag : Byte) (r : Request) :
    ∃ check : List Byte, check.length = 2 ∧ requestFrame destination source tag r =
      BitVec.ofNat 8 destination :: BitVec.ofNat 8 source :: BitVec.ofNat 8 (requestCode r) :: tag
        :: BitVec.ofNat 8 (requestBody r).length :: (requestBody r ++ check) := ⟨_, rfl, rfl⟩

/-- The frame of a well-formed request to an address or to broadcast is accepted there. -/
theorem judge_requestFrame {address destination : Nat} {h : Header} {r : Request} (valid : address ≤ 254)
    (addressed : destination = address ∨ destination = 255) (station : h.wf = true) (wf : r.wf = true) :
    judge address (requestFrame destination h.source h.tag r) =
      .accepted { broadcast := decide (destination = 255), source := h.source
                  code := requestCode r, tag := h.tag, body := requestBody r } := by
  obtain ⟨low, high⟩ : 1 ≤ h.source ∧ h.source ≤ 31 := by simpa [Header.wf] using station
  obtain ⟨-, hcode⟩ : 1 ≤ requestCode r ∧ requestCode r ≤ 42 := by
    simpa [isRequestCode] using readRequest_isRequestCode (readRequest_requestBody wf)
  have hbody : (requestBody r).length ≤ 240 := of_decide_eq_true (Bool.and_eq_true_iff.mp wf).2
  obtain ⟨check, hcheck, fields⟩ := requestFrame_fields destination h.source h.tag r
  have hlen : (requestFrame destination h.source h.tag r).length = (requestBody r).length + 7 := by
    simp [fields, hcheck]
  have byte {n : Nat} (hn : n < 256) : (BitVec.ofNat 8 n).toNat = n := Nat.mod_eq_of_lt hn
  rw [judge_fields fields (by omega) (by omega) (crc_checkBytes _), hlen, byte (by omega), byte (by omega), byte (by omega),
    byte (by omega), if_neg (by omega), if_neg (by omega), if_neg (by omega), if_neg (by omega), List.take_left' rfl]

/-- Settles O9. -/
theorem requestFrameIsReceived : Obligations.RequestFrameIsReceived := by
  intro s h r destination on gathering valid addressed station wf
  have run : escape (requestFrame destination h.source h.tag r) ≠ [] := by
    simp [escape_eq_nil, requestFrame]
  refine exec_frameReceived on ?_
  rw [takeMarker_closes gathering run, closeFrame_judged (unescape_escape _),
    judge_requestFrame valid addressed station wf]
  rfl

/-! ### The other events of the line (O11) -/

theorem responseSent_sending {s : State} {response : Response} {thenReset : Bool}
    (sending : s.link.phase = .sending response thenReset) :
    responseSent s = s.mapLink fun k => { k with phase := if thenReset = true then .resetting else .idle } := by
  unfold responseSent
  rw [sending]

/-- Settles O11: each event is one change of the link while the part runs. -/
theorem linkLineEvents : Obligations.LinkLineEvents := by
  have event {s : State} (on : s.power = .on) (f : State → State) : Host.Outcome.next (whileOn f s) =
      (.next (f s) : Host.Outcome State Fault Refusal) := congrArg Host.Outcome.next (if_pos on)
  refine ⟨fun s on => ⟨event on _, event on _, event on _⟩, fun s response thenReset on sending => ?_⟩
  exact (event on responseSent).trans (congrArg Host.Outcome.next (responseSent_sending sending))

end Sys2Proof.Machine
end

section
/-! Station rights and violations (R168 to R171; O14, O15). -/

namespace Sys2Proof.Machine

/-! ### What an entry allows (R168) -/

/-- The requests of settings-write class are the writes of a sheet (R167). -/
theorem rightClass_settingsWrite {r : Request} (h : rightClass r = .settingsWrite) :
    ∃ sheet start values, r = .storeWrite sheet start values := by
  unfold rightClass at h
  split at h <;> cases h
  exact ⟨_, _, _, rfl⟩

/-- A write admitted by its class names another sheet than STATIONS (R168). -/
theorem namedSheet_ne_stations {r : Request} (h : rightClass r = .settingsWrite) :
    namedSheet r ≠ some SheetName.stations.code ↔ ∀ start values, r ≠ .storeWrite 3 start values := by
  obtain ⟨sheet, start, values, rfl⟩ := rightClass_settingsWrite h
  refine ⟨fun other _ _ same => other ?_, fun other same => other start values ?_⟩
  · cases same
    rfl
  · cases same
    rfl

theorem Rights.allows_iff (w : Rights) (r : Request) : w.allows r = true ↔
    match rightClass r with
    | .generalRead => True
    | .orderFind | .orderRead => w.order ≠ 0
    | .orderCreate | .orderWrite => w.order = 1 ∨ w.order = 3
    | .money => w.money = true
    | .control => w.control = true
    | .settingsRead => w.settings ≠ 0
    | .settingsWrite => w.settings = 2 ∧ ∀ start values, r ≠ .storeWrite 3 start values
    | .labOnly => False := by
  unfold Rights.allows
  cases hclass : rightClass r with
  | settingsWrite => simp [← namedSheet_ne_stations hclass]
  | generalRead | orderCreate | orderFind | orderRead | orderWrite | money | control | settingsRead | labOnly => simp

/-! ### The tests of a station's entry (R168 to R170) -/

section
variable {source : Nat} {r : Request} {s : State}

/-- With no cycle running another station's request is tested by its entry (R170). -/
theorem rightsTest_entry (idle : s.cycleRuns = false) (setUp : s.link.setUp = true) (other : s.link.lab ≠ some source) :
    rightsTest source r s = entryTest source r s :=
  (if_neg (by simp [other, setUp])).trans (if_neg (Bool.eq_false_iff.mp idle))

/-- The owner test of an order on storage with no wrong bit (R169). -/
theorem ownerTest_named {n i : Nat} {o : Order} (clean : CleanStorage s) (found : s.findOrder n = some i)
    (held : s.order? i = some o) : ownerTest source n s =
      (if o.state ≠ .damaged ∧ o.owner ≠ source then .deny .notOwner else .pass none, s) := by
  obtain ⟨-, o', held', number⟩ := findOrder_some found
  obtain rfl : o = o' := Option.some.inj (held.symm.trans held')
  simp only [ownerTest, found, readSlot_clean clean, held, number, if_true]
  by_cases damaged : o.state = .damaged
  · simp [damaged]
  · by_cases owner : o.owner = source <;> simp [damaged, owner]

/-- An enabled station of OWN access is held to its own orders (R168, R169). -/
theorem entryTest_own {n : Nat} (good : s.store.stations.bad = false)
    (enabled : (rightsOf (s.store.stations.entry (source - 1))).enabled = true)
    (own : (rightsOf (s.store.stations.entry (source - 1))).order = 1) (named : namedNumber r = some n)
    (order : rightClass r = .orderRead ∨ rightClass r = .orderWrite) :
    entryTest source r s = ownerTest source n s := by
  have notLab : rightClass r ≠ .labOnly := by rcases order with h | h <;> simp [h]
  have allows : (rightsOf (s.store.stations.entry (source - 1))).allows r = true := by
    rcases order with h | h <;> simp [Rights.allows, h, own]
  simp [entryTest, good, enabled, notLab, allows, named, own, order]

end

/-- Settles O14. -/
theorem stationRights : Obligations.StationRights := by
  refine ⟨Rights.allows_iff, fun r n source s clean idle setUp other good named order => ?_⟩
  intro w enabled own
  have test : rightsTest source r s = ownerTest source n s :=
    (rightsTest_entry idle setUp other).trans (entryTest_own good enabled own named order)
  refine ⟨fun unknown => ?_, fun i o found held => test.trans (ownerTest_named clean found held)⟩
  rw [test, ownerTest, unknown]

/-! ### A request denied (R171) -/

section
variable {rest : List Frame} {r : Request} {s : State} {cause : DenyCause}

@[simp] theorem frameTaken_store : (s.frameTaken rest).store = s.store := rfl

/-- The entry's tests, in R168's order, and the owner test name the cause. -/
theorem entryTest_denies {source : Nat}
    (named : let w := rightsOf (s.store.stations.entry (source - 1))
      if s.store.stations.bad = true then cause = .sheetBad
      else if w.enabled = false then cause = .notEnabled
      else if rightClass r = .labOnly then cause = .labOnly
      else if w.allows r = false then cause = .noRight
      else cause = .notOwner ∧ CleanStorage s ∧ w.order = 1
        ∧ (rightClass r = .orderRead ∨ rightClass r = .orderWrite)
        ∧ ∃ n i o, namedNumber r = some n ∧ Names s n i o ∧ o.owner ≠ source) :
    entryTest source r (s.frameTaken rest) = (.deny cause, s.frameTaken rest) := by
  dsimp only at named
  split at named
  · next bad => simp [entryTest, bad, named]
  · next good =>
    split at named
    · next disabled => simp [entryTest, good, disabled, named]
    · next enabled =>
      split at named
      · next lab => simp [entryTest, good, enabled, lab, named]
      · next notLab =>
        split at named
        · next noRight => simp [entryTest, good, enabled, notLab, noRight, named]
        · obtain ⟨rfl, clean, own, order, n, i, o, number, ⟨found, held, sound⟩, owner⟩ := named
          rw [entryTest_own (s := s.frameTaken rest) (Bool.eq_false_iff.mpr good) (by simpa using enabled) own number order,
            ownerTest_named (s := s.frameTaken rest) clean found held, if_pos ⟨sound, owner⟩]

/-- The violation is recorded, or with a record held counted, and PROTECTION is raised (R171). -/
theorem violate_eq (source : Nat) (r : Request) (cause : DenyCause) (broadcast : Bool) (s : State) :
    violate source r cause broadcast s = { s with
      notices := { kinds := s.notices.kinds.modify 7 fun n =>
        { n with pending := true, count := min (n.count + 1) 255, detail := some source } }
      link := { s.link with
        violation := some (s.link.violation.getD
          { station := source, code := requestCode r, cause, number := namedNumber r, sheet := namedSheet r
            broadcast, time := s.shopTime })
        violationOverflow :=
          if s.link.violation.isSome = true then min (s.link.violationOverflow + 1) 255
          else s.link.violationOverflow } } := by
  unfold violate State.mapLink
  cases held : s.link.violation <;>
    · simp only [held]
      rfl

end

/-- Settles O15: the tests name the cause (`entryTest_denies`), and the refusal is its violation and its answer. -/
theorem deniedRequestIsRecorded : Obligations.DeniedRequestIsRecorded := by
  intro f rest r s calm idle hq clock setUp other _ read w cause named
  have test : rightsTest f.source r (s.frameTaken rest) = (.deny cause, s.frameTaken rest) :=
    (rightsTest_entry (s := s.frameTaken rest) idle setUp other).trans (entryTest_denies named)
  have passes : passRights { source := f.source, tag := f.tag } f.broadcast r rest.length (s.frameTaken rest) =
      denied { source := f.source, tag := f.tag } f.broadcast r cause (s.frameTaken rest) := by
    simp only [passRights, test]
  rw [exec_requestTaken calm hq ((frame_passes (s := s.frameTaken rest) setUp read clock).trans passes), denied, violate_eq]
  cases f.broadcast <;> exact congrArg Host.Outcome.next (settle_calm calm.noSignal calm.noTrial)

end Sys2Proof.Machine
end

section
/-! The step, and what stops a command (R162, R185, log entries 1, 2, 9 and 12; O1, O2). -/

namespace Sys2Proof.Machine

/-- Settles O1. -/
theorem stepTakesFrontCommand : Obligations.StepTakesFrontCommand := fun _ _ _ => ⟨rfl, rfl⟩

section
variable {c : Instr} {s : State}

/-- A request row of a part that does not run, or whose link is not IDLE, has no effect (log entry 9). -/
theorem exec_request_refused {h : Header} {r : Request} (hc : c.request? = some (h, r)) (refuses : s.accepts = false) :
    exec c s = .next s := by
  have noEffect : ¬s.accepts = true := Bool.eq_false_iff.mp refuses
  rcases exec_request hc s with he | he
  · exact he.trans (congrArg Host.Outcome.next (if_neg noEffect))
  · exact he.trans (congrArg Host.Outcome.next (if_neg noEffect))

/-- A part that does not run takes no command but a start, a loss of power or the reset input (R185, log entry 12). -/
theorem exec_stopped (stopped : s.power ≠ .on) (cold : ∀ x, c ≠ .coldStart x) (retained : ∀ x u, c ≠ .retainedStart x u)
    (loss : c ≠ .powerLoss) (input : c ≠ .resetInputAsserted) : exec c s = .next s := by
  have refuses : s.accepts = false := by simp [State.accepts, stopped]
  cases hc : c.request? with
  | some request => exact exec_request_refused hc refuses
  | none =>
    cases c with
    | coldStart x => exact absurd rfl (cold x)
    | retainedStart x u => exact absurd rfl (retained x u)
    | powerLoss => exact absurd rfl loss
    | resetInputAsserted => exact absurd rfl input
    | warmResetEffect a b =>
      have notDue : ¬warmResetDue s = true := by simp [warmResetDue, stopped]
      exact congrArg Host.Outcome.next (if_neg notDue)
    | frameReceived | linkCharacterError | frameOversize | markerReceivedInHunt | requestTaken | responseSent
    | writeCycleEnd | waitingReadProceeds | secondEvent | draftTimeout | minuteEvent | linePeriodEnd | switchTimerExpiry
    | firstLineTimeout | imageDelivery | lampSupplyLow | lampSupplyRecovery | lampTimerExpiry | magazineInserted
    | magazineRemoved | paperEnd | paperEndClear | encoderEvent | windowExpiry | markEvent | conversionEnd | binDoorOpen
    | binDoorClose => exact congrArg Host.Outcome.next (if_neg stopped)
    | _ => cases hc

/-- A part without power stays as it is under a loss of power and under the reset input (log entry 12). -/
theorem exec_off (off : s.power = .off) (cold : ∀ x, c ≠ .coldStart x) (retained : ∀ x u, c ≠ .retainedStart x u) :
    exec c s = .next s := by
  by_cases stops : c = .powerLoss ∨ c = .resetInputAsserted
  · rcases stops with rfl | rfl <;> exact congrArg Host.Outcome.next (if_pos off)
  · obtain ⟨loss, input⟩ := not_or.mp stops
    exact exec_stopped (by simp [off]) cold retained loss input

end

/-- Settles O2: every command completes and keeps the queue of commands (`exec_safe`), a part that does not run takes
the starts and stops alone (`exec_stopped`), and a link that is not IDLE no request row. -/
theorem everyCommandCompletes : Obligations.EveryCommandCompletes := by
  refine ⟨fun c s => ?_, fun c s cold retained => ⟨fun off => exec_off off cold retained,
    fun inReset loss input => exec_stopped (by simp [inReset]) cold retained loss input⟩, fun c h r s hc busy => ?_⟩
  · obtain ⟨t, he, safe⟩ := exec_safe c s
    exact ⟨t, he, safe.pending⟩
  · exact exec_request_refused hc (by simp [State.accepts, busy])

end Sys2Proof.Machine
end

section
/-! The link's own requests and the store's (R165, R166, R172, R181, R182; O16, O18). -/

namespace Sys2Proof.Machine

/-! ### LINK_SETUP and READ_LINK (R165, R172) -/

section
variable {address lab : Option Nat} {s : State}

theorem setupBad_iff {limit : Nat} {item : Option Nat} :
    setupBad limit item = true ↔ ∃ a ∈ item, a = 0 ∨ limit < a := by
  cases item with
  | none => simp [setupBad]
  | some a => simp [setupBad]

theorem decideLinkSetup_badValue (bad : (∃ a ∈ address, a = 0 ∨ 254 < a) ∨ (∃ l ∈ lab, l = 0 ∨ 31 < l)) :
    decideLinkSetup address lab s = (.answer .badValue [], s) :=
  if_pos (by simpa only [Bool.or_eq_true, setupBad_iff] using bad)

/-- LINK_SETUP with its items in range waits for a cycle on an absent one alone. -/
theorem decideLinkSetup_sets (ha : ∀ a ∈ address, 1 ≤ a ∧ a ≤ 254) (hl : ∀ l ∈ lab, 1 ≤ l ∧ l ≤ 31)
    (ready : s.cycleRuns = false ∨ (address.isSome = true ∧ lab.isSome = true)) :
    decideLinkSetup address lab s =
      let a := address.getD s.store.general.linkAddressDefault
      let l := lab.getD s.store.general.labStationDefault
      (.answer .ok (item8 a ++ item8 l),
        { s with link := { s.link with setUp := true, address := a, lab := some l } }) := by
  have noWait : ¬((address.isNone || lab.isNone) && s.cycleRuns) = true := by
    rcases ready with idle | ⟨present, labPresent⟩
    · simp [idle]
    · obtain ⟨a, rfl⟩ := Option.isSome_iff_exists.mp present
      obtain ⟨l, rfl⟩ := Option.isSome_iff_exists.mp labPresent
      simp
  exact (if_neg (by simp [setupBad_none ha, setupBad_none hl])).trans (if_neg noWait)

end

/-- Settles O16. -/
theorem linkRequestsAnswer : Obligations.LinkRequestsAnswer := by
  refine ⟨fun h address lab s ok => ⟨fun bad => ?_, fun ha hl ready => ?_⟩, fun h s ok => ?_⟩
  · exact congrArg Host.Outcome.next (serve_answer ok (decideLinkSetup_badValue bad))
  · exact congrArg Host.Outcome.next (serve_answer ok (decideLinkSetup_sets ha hl ready))
  · have answers {c : Instr} {r : Request} {d : State → Reply × State} {t : State} {body : List Byte}
        (he : exec c s = .next (serve h r d s)) (hd : d s = (.answer .ok body, t)) :
        exec c s = .next (t.answered h r .ok body) := he.trans (congrArg Host.Outcome.next (serve_answer ok hd))
    intro k held
    have violation : violationItems s.link = held :=
      congrArg (· ++ item8 s.link.violationOverflow) (by cases s.link.violation <;> rfl)
    refine ⟨answers rfl rfl, answers rfl (violation ▸ rfl), answers rfl (violation ▸ rfl), fun idle => answers rfl ?_⟩
    exact if_neg (Bool.eq_false_iff.mp idle)

/-! ### STORE_READ and STORE_WRITE (R181, R182) -/

theorem storeNamed_none {sheet start count : Nat} (out : 4 < sheet ∨ 63 < start ∨ count = 0 ∨ 16 < count) :
    storeNamed sheet start count = none := by
  rcases out with high | out
  · obtain ⟨k, rfl⟩ := Nat.exists_eq_add_of_le' high
    exact ite_self none
  · exact if_pos out

theorem storeNamed_code {name : SheetName} {start count : Nat} (he : start ≤ 63) (low : 1 ≤ count) (high : count ≤ 16) :
    storeNamed name.code start count = some name := by
  refine (if_neg (by omega)).trans ?_
  cases name <;> rfl

section
variable {sheet start count : Nat} {values : List Word32} {name : SheetName} {s : State}

theorem decideStoreRead_badValue (unnamed : storeNamed sheet start count = none) :
    decideStoreRead sheet start count s = (.answer .badValue [], s) := by
  rw [decideStoreRead, unnamed]
  rfl

theorem decideStoreRead_busy (named : storeNamed sheet start count = some name) (runs : s.cycleRuns = true) :
    decideStoreRead sheet start count s = (.answer .storeBusy [], s) := by
  rw [decideStoreRead, named]
  exact if_pos runs

/-- STORE_READ's answer (R181). -/
theorem decideStoreRead_answers (named : storeNamed sheet start count = some name) (idle : s.cycleRuns = false) :
    decideStoreRead sheet start count s = (.answer .ok (itemList8 itemWord (readEntries (s.store.sheet name) start count)
      ++ itemFlag (s.store.sheet name).bad ++ (s.store.sheet name).pages.flatMap itemFlag
      ++ item16 (s.store.sheet name).writes), s) := by
  rw [decideStoreRead, named]
  exact if_neg (Bool.eq_false_iff.mp idle)

theorem decideStoreWrite_badValue (unnamed : storeNamed sheet start values.length = none) :
    decideStoreWrite sheet start values s = (.answer .badValue [], s) := by
  rw [decideStoreWrite, unnamed]
  rfl

theorem decideStoreWrite_busy (named : storeNamed sheet start values.length = some name) (runs : s.cycleRuns = true) :
    decideStoreWrite sheet start values s = (.answer .storeBusy [], s) := by
  rw [decideStoreWrite, named]
  exact if_pos runs

end

/-- The entries that STORE_READ lists wrap within the page of the start entry (R181). -/
theorem itemList8_readEntries (sheet : Sheet) (start count : Nat) :
    itemList8 itemWord (readEntries sheet start count) = item8 count ++ ((List.range count).flatMap fun k =>
      itemWord (sheet.entry (16 * (start / 16) + (start % 16 + k) % 16))) := by
  have place : ∀ k, start / 16 * 16 + (start + k) % 16 = 16 * (start / 16) + (start % 16 + k) % 16 := fun k => by omega
  simp only [itemList8, readEntries, List.length_map, List.length_range, List.flatMap_map, place]

/-- Settles O18: both requests' tests name a sheet or none (`storeNamed`), and the cycle is tested after it. -/
theorem storeReadsAndRefusals : Obligations.StoreReadsAndRefusals := by
  refine ⟨fun h sheet start count s ok => ⟨fun out => ?_, fun name hsheet he low high => ⟨fun runs => ?_, fun idle => ?_⟩⟩,
    fun h sheet start values s ok => ⟨fun out => ?_, fun hsheet he low high runs => ?_⟩⟩
  · exact congrArg Host.Outcome.next (serve_answer ok (decideStoreRead_badValue (storeNamed_none out)))
  · have named := hsheet ▸ storeNamed_code (name := name) he low high
    exact congrArg Host.Outcome.next (serve_answer ok (decideStoreRead_busy named runs))
  · have named := hsheet ▸ storeNamed_code (name := name) he low high
    rw [← itemList8_readEntries]
    exact congrArg Host.Outcome.next (serve_answer ok (decideStoreRead_answers named idle))
  · exact congrArg Host.Outcome.next (serve_answer ok (decideStoreWrite_badValue (storeNamed_none out)))
  · obtain ⟨name, named⟩ := storeNamed_some hsheet he low high
    exact congrArg Host.Outcome.next (serve_answer ok (decideStoreWrite_busy named runs))

end Sys2Proof.Machine
end

section
/-! Stops of the part and the notices' requests (R174 to R176, R183, R185; O17, O60). -/

namespace Sys2Proof.Machine

/-! ### A stop of the part (R183, R185) -/

theorem stopPart_idle {s : State} (idle : s.store.cycle = none) (power : Power) :
    stopPart power s = { s with power, engine := { s.engine with head := .unlit } } := by
  rw [stopPart, cutCycle_none idle]
  rfl

/-- A stop during a write cycle: the written sheet's entries are torn, the cycle is over (R183). -/
theorem stopPart_cuts {s : State} {c : WriteCycle} (runs : s.store.cycle = some c) (power : Power) :
    stopPart power s = { s with
      power, engine := { s.engine with head := .unlit }, draws := s.draws + 1
      store := { s.store.setSheet c.sheet { s.store.sheet c.sheet with
        entries := tornEntries s.draws c.page c.before (s.store.sheet c.sheet).entries } with cycle := none } } := by
  simp only [stopPart, cutCycle, runs]
  rfl

/-- An entry of a torn sheet is its old one, or, in the written page or the check entry, its new one (R183). -/
theorem tornEntries_old_or_new {draw page i : Nat} {before after : List Word32} (hbefore : before.length = 64)
    (hafter : after.length = 64) (hi : i < 64) :
    (tornEntries draw page before after)[i]? = before[i]?
      ∨ ((i / 16 = page ∨ i = 63) ∧ (tornEntries draw page before after)[i]? = after[i]?) := by
  have old : before[i]? = some (before.getD i 0) := by simp [hbefore, hi]
  have new : after[i]? = some (after.getD i 0) := by simp [hafter, hi]
  have torn : (tornEntries draw page before after)[i]? = some
      (if (i / 16 = page ∨ i = 63) ∧ Config.entryWritten draw i = true then after.getD i 0 else before.getD i 0) := by
    simp [tornEntries, hi]
  rw [torn, old, new]
  split
  · next written => exact .inr ⟨written.1, rfl⟩
  · exact .inl rfl

/-- Settles O60: both stops are `stopPart`, and `tornEntries_old_or_new` says what a cycle cut short leaves. -/
theorem stoppingCutsAWriteCycle : Obligations.StoppingCutsAWriteCycle := by
  refine fun s => ⟨fun off => ⟨exec_off off nofun nofun, exec_off off nofun nofun⟩, fun powered => ?_⟩
  have loss : exec .powerLoss s = .next (stopPart .off s) := congrArg Host.Outcome.next (if_neg powered)
  have input : exec .resetInputAsserted s = .next (stopPart .inReset s) := congrArg Host.Outcome.next (if_neg powered)
  refine ⟨fun idle => ?_, fun c runs hafter hbefore => ⟨{ s.store.sheet c.sheet with
    entries := tornEntries s.draws c.page c.before (s.store.sheet c.sheet).entries }, ?_, ?_, rfl,
    tornEntries_length .., fun i => tornEntries_old_or_new hbefore hafter⟩⟩
  · exact ⟨stopPart_idle idle .off ▸ loss, stopPart_idle idle .inReset ▸ input⟩
  · exact stopPart_cuts runs .off ▸ loss
  · exact stopPart_cuts runs .inReset ▸ input

/-! ### The notice line and the reported code (R175) -/

/-- A kind that asks for the notice line: pending and enabled. -/
def Notice.asserts (n : Notice) : Bool := n.pending && n.enable

theorem Notice.asserts_iff {n : Notice} : n.asserts = true ↔ n.pending = true ∧ n.enable = true :=
  Bool.and_eq_true_iff

theorem Notice.asserts_eq_false_iff {n : Notice} : n.asserts = false ↔ n.pending = false ∨ n.enable = false :=
  Bool.and_eq_false_iff

theorem NoticeUnit.code_eq_succ_iff {n : NoticeUnit} {k : Nat} :
    n.code = k + 1 ↔ n.kinds.findIdx? Notice.asserts = some k := by
  show (match n.kinds.findIdx? Notice.asserts with | some i => i + 1 | none => 0) = k + 1 ↔ _
  cases n.kinds.findIdx? Notice.asserts with
  | none => simp
  | some i => simp

/-- The reported code is not 0 exactly while the line is asserted. -/
theorem NoticeUnit.line_iff_code {n : NoticeUnit} : n.line = true ↔ n.code ≠ 0 := by
  have some_kind : n.line = (n.kinds.findIdx? Notice.asserts).isSome := List.findIdx?_isSome.symm
  rw [some_kind, Option.isSome_iff_exists]
  exact ⟨fun ⟨k, hk⟩ => by simp [code_eq_succ_iff.mpr hk],
    fun reported => (Nat.exists_eq_succ_of_ne_zero reported).imp fun _ hk => code_eq_succ_iff.mp hk⟩

/-- The reported code is that of the first kind both pending and enabled. -/
theorem NoticeUnit.code_eq_succ_iff_first {n : NoticeUnit} {k : Nat} :
    n.code = k + 1 ↔ (∃ x, n.kinds[k]? = some x ∧ x.pending = true ∧ x.enable = true)
      ∧ ∀ j < k, ∀ x, n.kinds[j]? = some x → x.pending = false ∨ x.enable = false := by
  simp only [← Notice.asserts_iff, ← Notice.asserts_eq_false_iff]
  rw [code_eq_succ_iff, List.findIdx?_eq_some_iff_getElem]
  constructor
  · rintro ⟨hk, asserts, before⟩
    refine ⟨⟨_, List.getElem?_eq_getElem hk, asserts⟩, fun j hj x hx => ?_⟩
    obtain ⟨_, rfl⟩ := List.getElem?_eq_some_iff.mp hx
    exact Bool.eq_false_iff.mpr (before j hj)
  · rintro ⟨⟨x, hx, asserts⟩, before⟩
    obtain ⟨hk, rfl⟩ := List.getElem?_eq_some_iff.mp hx
    exact ⟨hk, asserts, fun j hj =>
      Bool.eq_false_iff.mp (before j hj _ (List.getElem?_eq_getElem (hj.trans hk)))⟩

/-! ### The notices' requests (R176) -/

section
variable {kind : Nat} {s : State}

theorem decideClearNotice_clears {n : Notice} (named : 1 ≤ kind) (held : s.notices.kinds[kind - 1]? = some n) :
    decideClearNotice kind s = (.answer .ok (item8 n.count ++ itemOption (itemDetail (kind - 1)) n.detail),
      { s with notices := { kinds := s.notices.kinds.set (kind - 1) n.cleared } }) := by
  have modified : s.notices.kinds.modify (kind - 1) Notice.cleared = s.notices.kinds.set (kind - 1) n.cleared := by
    rw [List.modify_eq_set_getElem?, held]
    rfl
  rw [decideClearNotice, held, ← modified]
  exact if_neg (Nat.ne_of_gt named)

theorem decideClearNotice_badValue (out : kind = 0 ∨ s.notices.kinds.length < kind) :
    decideClearNotice kind s = (.answer .badValue [], s) := by
  rw [decideClearNotice]
  rcases out with zero | beyond
  · split
    · exact if_pos zero
    · rfl
  · rw [List.getElem?_eq_none (by omega)]
    rfl

end

theorem setEnables_getElem? (mask : BitVec 16) (kinds : List Notice) (i : Nat) :
    (setEnables mask kinds)[i]? = (kinds[i]?).map fun n => { n with enable := mask.getLsbD i } := by
  simp only [setEnables, List.getElem?_map, List.getElem?_zipIdx, Option.map_map, Nat.zero_add]
  rfl

/-- Settles O17: the three requests' decisions, and what `findIdx?` says of the reported code. -/
theorem noticeRequestsAnswer : Obligations.NoticeRequestsAnswer := by
  refine ⟨fun h s ok => ⟨?_, fun kind n named held => ?_, fun kind out => ?_, fun mask => ⟨_, ?_,
    setEnables_getElem? mask s.notices.kinds⟩⟩, fun n => ⟨n.line_iff_code, fun k => n.code_eq_succ_iff_first⟩⟩
  · exact congrArg Host.Outcome.next (serve_answer ok rfl)
  · exact congrArg Host.Outcome.next (serve_answer ok (decideClearNotice_clears named held))
  · exact congrArg Host.Outcome.next (serve_answer ok (decideClearNotice_badValue out))
  · exact congrArg Host.Outcome.next (serve_answer ok rfl)

end Sys2Proof.Machine
end

section
/-! What a STORE_WRITE stores, and where (R182, R183; O19). -/

namespace Sys2Proof.Machine

/-! ### The entries a write goes to (R182) -/

theorem writtenEntries_length (start count : Nat) : (writtenEntries start count).length = count := by
  induction count generalizing start with
  | zero => rfl
  | succ n ih => exact congrArg (· + 1) (ih _)

theorem firstWritable_lt {start : Nat} (he : start ≤ 63) : firstWritable start < 63 := by
  unfold firstWritable
  split <;> omega

theorem nextWritable_lt {i : Nat} (hi : i < 63) : nextWritable i < 63 := by
  unfold nextWritable
  split
  · omega
  · split <;> omega

/-- The entry `k` places after `i` in the circle of `i`'s page; the last page's circle has 15 entries. -/
def circleEntry (i k : Nat) : Nat :=
  if i < 48 then 16 * (i / 16) + (i % 16 + k) % 16 else 48 + (i - 48 + k) % 15

theorem circleEntry_lt {i : Nat} (k : Nat) : circleEntry i k < 63 := by
  unfold circleEntry
  split <;> omega

theorem circleEntry_zero {i : Nat} (hi : i < 63) : circleEntry i 0 = i := by
  unfold circleEntry
  split <;> omega

theorem circleEntry_nextWritable {i : Nat} (k : Nat) (hi : i < 63) :
    circleEntry (nextWritable i) k = circleEntry i (k + 1) := by
  unfold circleEntry nextWritable
  split_ifs <;> omega

theorem circleEntry_firstWritable (start k : Nat) :
    circleEntry (firstWritable start) k = if start < 48 then 16 * (start / 16) + (start % 16 + k) % 16
      else 48 + ((if start = 63 then 0 else start - 48) + k) % 15 := by
  unfold circleEntry firstWritable
  split_ifs <;> omega

/-- A write's entries follow one another in the circle of its page. -/
theorem writtenEntries_getElem? {start count k : Nat} (hs : start < 63) (hk : k < count) :
    (writtenEntries start count)[k]? = some (circleEntry start k) := by
  induction count generalizing start k with
  | zero => exact absurd hk (Nat.not_lt_zero k)
  | succ n ih =>
    cases k with
    | zero => exact congrArg some (circleEntry_zero hs).symm
    | succ k =>
      calc (writtenEntries (nextWritable start) n)[k]?
        _ = some (circleEntry (nextWritable start) k) := ih (nextWritable_lt hs) (Nat.lt_of_succ_lt_succ hk)
        _ = some (circleEntry start (k + 1)) := congrArg some (circleEntry_nextWritable k hs)

/-- No write goes to the check entry. -/
theorem writtenEntries_lt {start count i : Nat} (hs : start < 63) (hi : i ∈ writtenEntries start count) : i < 63 := by
  obtain ⟨k, hk⟩ := List.mem_iff_getElem?.mp hi
  have short : k < count := writtenEntries_length start count ▸ (List.getElem?_eq_some_iff.mp hk).1
  obtain rfl := Option.some.inj ((writtenEntries_getElem? hs short).symm.trans hk)
  exact circleEntry_lt k

/-! ### The values placed (R182) -/

section
variable {name : SheetName} {i k : Nat} {w : Word32}

theorem placeValues_of_notMem {l : List (Nat × Word32)} (acc : List Word32 × Bool) (other : i ∉ l.map Prod.fst) :
    (placeValues name l acc).1[i]? = acc.1[i]? := by
  induction l generalizing acc with
  | nil => rfl
  | cons x l ih =>
    obtain ⟨ne, others⟩ := List.ne_and_not_mem_of_not_mem_cons other
    exact (ih _ others).trans (List.getElem?_set_ne ne.symm)

/-- An entry holds, clamped, the last value placed in it. -/
theorem placeValues_last {l : List (Nat × Word32)} (acc : List Word32 × Bool) (hi : i < acc.1.length)
    (placed : l[k]? = some (i, w)) (last : ∀ j, k < j → (l.map Prod.fst)[j]? ≠ some i) :
    (placeValues name l acc).1[i]? = some (clampEntry name i w).1 := by
  induction l generalizing acc k with
  | nil => cases placed
  | cons x l ih =>
    cases k with
    | zero =>
      obtain rfl := Option.some.inj placed
      have none_later : i ∉ l.map Prod.fst := fun later => by
        obtain ⟨j, hj⟩ := List.mem_iff_getElem?.mp later
        exact last (j + 1) (Nat.succ_pos j) hj
      exact (placeValues_of_notMem _ none_later).trans (List.getElem?_set_self hi)
    | succ k =>
      exact ih _ (by simpa using hi) placed fun j hj => last (j + 1) (Nat.succ_lt_succ hj)

/-- A write reports a clamp when the clamp of one of its values acted. -/
theorem placeValues_clamped (l : List (Nat × Word32)) (acc : List Word32 × Bool) :
    (placeValues name l acc).2 = (acc.2 || l.any fun x => (clampEntry name x.1 x.2).2) := by
  induction l generalizing acc with
  | nil => exact (Bool.or_false _).symm
  | cons x l ih => exact (ih _).trans (Bool.or_assoc ..)

end

theorem Sheet.entry_eq {a b : Sheet} {i : Nat} (same : a.entries[i]? = b.entries[i]?) : a.entry i = b.entry i := by
  simp only [Sheet.entry, List.getD_eq_getElem?_getD, same]

theorem sealEntries_getElem? {l : List Word32} {i : Nat} (hi : i < 63) : (sealEntries l)[i]? = l[i]? :=
  List.getElem?_set_ne (Nat.ne_of_gt hi)

/-! ### The written sheet (R182, R183) -/

/-- A write's values, each with the entry it goes to. -/
def placedValues (start : Nat) (values : List Word32) : List (Nat × Word32) :=
  (writtenEntries (firstWritable start) values.length).zip values

/-- A sheet with a write's values in it. -/
def Sheet.written (name : SheetName) (start : Nat) (values : List Word32) (old : Sheet) : Sheet :=
  { old with
    entries := sealEntries (placeValues name (placedValues start values) (old.entries, false)).1
    pages := old.pages.set (start / 16) true
    writes := (old.writes + 1) % 65536 }

theorem storeWrite_written (name : SheetName) (start : Nat) (values : List Word32) (s : State) :
    storeWrite name start values s =
      ((placeValues name (placedValues start values) ((s.store.sheet name).entries, false)).2,
        { s with store := { s.store.setSheet name ((s.store.sheet name).written name start values) with
          cycle := some { sheet := name, page := start / 16, before := (s.store.sheet name).entries } } }) := rfl

section
variable {name : SheetName} {start : Nat} {values : List Word32} {old : Sheet}

theorem placedValues_fst :
    (placedValues start values).map Prod.fst = writtenEntries (firstWritable start) values.length :=
  List.map_fst_zip (Nat.le_of_eq (writtenEntries_length ..))

theorem placedValues_getElem? {k i : Nat} {w : Word32} :
    (placedValues start values)[k]? = some (i, w) ↔
      (writtenEntries (firstWritable start) values.length)[k]? = some i ∧ values[k]? = some w :=
  List.getElem?_zip_eq_some

theorem Sheet.written_length : (old.written name start values).entries.length = old.entries.length :=
  (sealEntries_length _).trans (placeValues_length ..)

theorem Sheet.written_agrees (full : old.entries.length = 64) :
    checkAgrees (old.written name start values).entries = true :=
  sealEntries_agrees _ ((placeValues_length ..).trans full)

/-- An entry that a write does not go to keeps its value. -/
theorem Sheet.written_entry_other {i : Nat} (hi : i < 63)
    (other : i ∉ writtenEntries (firstWritable start) values.length) :
    (old.written name start values).entry i = old.entry i :=
  Sheet.entry_eq ((sealEntries_getElem? hi).trans (placeValues_of_notMem _ (placedValues_fst ▸ other)))

/-- An entry that a write goes to takes the last value carried for it, clamped. -/
theorem Sheet.written_entry_last {k i : Nat} {w : Word32} (full : old.entries.length = 64) (he : start ≤ 63)
    (goes : (writtenEntries (firstWritable start) values.length)[k]? = some i) (carried : values[k]? = some w)
    (last : ∀ j, k < j → (writtenEntries (firstWritable start) values.length)[j]? ≠ some i) :
    (old.written name start values).entry i = (clampEntry name i w).1 := by
  have hi : i < 63 := writtenEntries_lt (firstWritable_lt he) (List.mem_of_getElem? goes)
  have stored : (old.written name start values).entries[i]? = some (clampEntry name i w).1 :=
    (sealEntries_getElem? hi).trans (placeValues_last (old.entries, false) (full.symm ▸ hi.trans (by decide))
      (placedValues_getElem?.mpr ⟨goes, carried⟩) (placedValues_fst.symm ▸ last))
  simp only [Sheet.entry, List.getD_eq_getElem?_getD, stored, Option.getD_some]

/-- A write reports a clamp exactly when one acted on a value it carries. -/
theorem storeWrite_clamped_iff {s : State} : (storeWrite name start values s).1 = true ↔
      ∃ (k i : Nat) (w : Word32), (writtenEntries (firstWritable start) values.length)[k]? = some i
        ∧ values[k]? = some w ∧ (clampEntry name i w).2 = true := by
  rw [storeWrite_written, placeValues_clamped, Bool.false_or, List.any_eq_true]
  constructor
  · rintro ⟨⟨i, w⟩, placed, acted⟩
    obtain ⟨k, hk⟩ := List.mem_iff_getElem?.mp placed
    obtain ⟨goes, carried⟩ := placedValues_getElem?.mp hk
    exact ⟨k, i, w, goes, carried, acted⟩
  · rintro ⟨k, i, w, goes, carried, acted⟩
    exact ⟨(i, w), List.mem_of_getElem? (placedValues_getElem?.mpr ⟨goes, carried⟩), acted⟩

/-- STORE_WRITE's answer: one stored entry for each value carried, and the write count (R182). -/
theorem decideStoreWrite_writes {sheet : Nat} {s : State} (named : storeNamed sheet start values.length = some name)
    (idle : s.cycleRuns = false) :
    let stored := (s.store.sheet name).written name start values
    let goes := writtenEntries (firstWritable start) values.length
    decideStoreWrite sheet start values s =
      (.answer (if (storeWrite name start values s).1 = true then .okClamped else .ok)
        (item8 goes.length ++ (goes.flatMap fun i => itemWord (stored.entry i)) ++ item16 stored.writes),
       (storeWrite name start values s).2) := by
  intro stored goes
  have sheetWritten : (storeWrite name start values s).2.store.sheet name = stored := by
    rw [storeWrite_written, SettingsStore.sheet_withCycle, SettingsStore.sheet_setSheet, if_pos rfl]
  have items : itemList8 itemWord (storedEntries name start values.length (storeWrite name start values s).2) =
      item8 goes.length ++ goes.flatMap fun i => itemWord (stored.entry i) := by
    simp only [itemList8, storedEntries, sheetWritten, List.length_map, List.flatMap_map, goes]
  rw [← items, ← sheetWritten, decideStoreWrite, named]
  exact if_neg (Bool.eq_false_iff.mp idle)

end

/-- Settles O19: the written sheet is `Sheet.written`, whose entries follow `placeValues_last` and
`placeValues_of_notMem`, and a write's entries are `circleEntry`'s. -/
theorem storeWriteStoresOnePage : Obligations.StoreWriteStoresOnePage := by
  refine ⟨fun h name start values s ok idle he low high wf => ?_, fun start count k he hk =>
    ⟨writtenEntries_length .., ?_⟩⟩
  · refine ⟨(storeWrite name start values s).1, (s.store.sheet name).written name start values, ?_, rfl, rfl, rfl,
      Sheet.written_length.trans wf.entries, Sheet.written_agrees wf.entries, fun i => Sheet.written_entry_other,
      fun k i w => Sheet.written_entry_last wf.entries he, storeWrite_clamped_iff⟩
    exact congrArg Host.Outcome.next
      (serve_answer ok (decideStoreWrite_writes (storeNamed_code (name := name) he low high) idle))
  · exact (writtenEntries_getElem? (firstWritable_lt he) hk).trans (congrArg some (circleEntry_firstWritable start k))

end Sys2Proof.Machine
end

section
/-! What each field of a sheet stores of a written value (R180, R182; O20). -/

namespace Sys2Proof.Machine

/-! ### Storing a stored value again (R182, log entry 26) -/

/-- A field that stores a value it has stored as it is. -/
def StoresAgain (field : Word32 → Word32 × Bool) : Prop := ∀ w, field (field w).1 = ((field w).1, false)

theorem storesAgain_any : StoresAgain fun w => (w, false) := fun _ => rfl

/-- An entry's map chooses the field by the entry alone. -/
theorem StoresAgain.ite {c : Prop} [Decidable c] {f g : Word32 → Word32 × Bool} (hf : StoresAgain f)
    (hg : StoresAgain g) : StoresAgain fun w => if c then f w else g w := by
  intro w
  by_cases h : c
  · simpa only [if_pos h] using hf w
  · simpa only [if_neg h] using hg w

theorem clampTo_of_mem {low high : Nat} {w : Word32} (above : low ≤ w.toNat) (below : w.toNat ≤ high) :
    clampTo low high w = (w, false) :=
  (if_neg (Nat.not_lt.mpr above)).trans (if_neg (Nat.not_lt.mpr below))

/-- What a range stores lies in it. -/
theorem clampTo_mem {low high : Nat} (ordered : low ≤ high) (word : high < 2 ^ 32) (w : Word32) :
    low ≤ (clampTo low high w).1.toNat ∧ (clampTo low high w).1.toNat ≤ high := by
  unfold clampTo
  split_ifs
  · rw [BitVec.toNat_ofNat, Nat.mod_eq_of_lt (ordered.trans_lt word)]
    exact ⟨Nat.le_refl low, ordered⟩
  · rw [BitVec.toNat_ofNat, Nat.mod_eq_of_lt word]
    exact ⟨ordered, Nat.le_refl high⟩
  · next above below => exact ⟨Nat.le_of_not_lt above, Nat.le_of_not_lt below⟩

theorem storesAgain_clampTo {low high : Nat} (ordered : low ≤ high) (word : high < 2 ^ 32) :
    StoresAgain (clampTo low high) := fun w =>
  clampTo_of_mem (clampTo_mem ordered word w).1 (clampTo_mem ordered word w).2

theorem storesAgain_balance : StoresAgain (clampSigned (-40) 40) := by
  intro w
  by_cases low : w.toInt < -40
  · have stored : clampSigned (-40) 40 w = (BitVec.ofInt 32 (-40), true) := if_pos low
    rw [stored]
    decide
  · by_cases high : 40 < w.toInt
    · have stored : clampSigned (-40) 40 w = (BitVec.ofInt 32 40, true) := (if_neg low).trans (if_pos high)
      rw [stored]
      decide
    · have stored : clampSigned (-40) 40 w = (w, false) := (if_neg low).trans (if_neg high)
      rw [stored]
      exact stored

theorem storesAgain_clampPrintLength : StoresAgain clampPrintLength := by
  intro w
  by_cases zero : w = 0
  · subst zero
    rfl
  · have stored : clampPrintLength w = clampTo 1000 12000 w := if_neg zero
    have positive : (clampTo 1000 12000 w).1 ≠ 0 := fun h => by
      have low := (clampTo_mem (low := 1000) (high := 12000) (by decide) (by decide) w).1
      rw [h] at low
      exact absurd low (by decide)
    rw [stored]
    exact (if_neg positive).trans (storesAgain_clampTo (by decide) (by decide) w)

/-! ### Roll widths (R180, R182) -/

/-- The stored width is a listed one. -/
theorem clampWidth_listed (w : Word32) : ∃ width ∈ rollWidths, (clampWidth w).1 = BitVec.ofNat 32 width := by
  refine ⟨_, ?_, rfl⟩
  rw [List.getLastD_eq_getLast?]
  cases h : (rollWidths.filter (· ≤ w.toNat)).getLast? with
  | none => decide
  | some width => exact List.mem_of_mem_filter (List.mem_of_getLast? h)

theorem storesAgain_clampWidth : StoresAgain clampWidth := by
  have again : ∀ width ∈ rollWidths, clampWidth (BitVec.ofNat 32 width) = (BitVec.ofNat 32 width, false) := by decide
  intro w
  obtain ⟨width, listed, hw⟩ := clampWidth_listed w
  rw [hw]
  exact again width listed

theorem clampWidth_low {w : Word32} (low : w.toNat < 89) : clampWidth w = (89, true) := by
  have none_listed : rollWidths.filter (· ≤ w.toNat) = [] := by
    simp only [rollWidths, List.filter_eq_nil_iff, decide_eq_true_eq]
    intro width listed
    have : 89 ≤ width := (by decide : ∀ width ∈ rollWidths, 89 ≤ width) width listed
    omega
  have acted : (89 != w.toNat) = true := by simp; omega
  simp only [clampWidth, none_listed, List.getLastD_nil, acted]
  rfl

/-- Each listed width with the next one, or with the first number beyond a word for the last. -/
def widthRows : List (Nat × Nat) :=
  [(89, 102), (102, 127), (127, 152), (152, 203), (203, 254), (254, 305), (305, 2 ^ 32)]

/-- No listed width lies between a row's two. -/
theorem widthRows_adjacent : ∀ row ∈ widthRows, ∀ width ∈ rollWidths, width ≤ row.1 ∨ row.2 ≤ width := by decide

theorem widthRows_last : ∀ row ∈ widthRows, (rollWidths.filter (· ≤ row.1)).getLastD 89 = row.1 := by decide

/-- A value from a listed width up to the next is stored as the listed one. -/
theorem clampWidth_between {listed next : Nat} {w : Word32} (row : (listed, next) ∈ widthRows)
    (above : listed ≤ w.toNat) (below : w.toNat < next) :
    clampWidth w = (BitVec.ofNat 32 listed, decide (w.toNat ≠ listed)) := by
  have sameWidths : rollWidths.filter (· ≤ w.toNat) = rollWidths.filter (· ≤ listed) :=
    List.filter_congr fun width hw => decide_eq_decide.mpr <| by
      have adjacent := widthRows_adjacent _ row width hw
      omega
  have acted : (listed != w.toNat) = decide (w.toNat ≠ listed) :=
    Bool.eq_iff_iff.mpr (bne_iff_ne.trans (ne_comm.trans decide_eq_true_iff.symm))
  simp only [clampWidth, sameWidths, widthRows_last _ row, acted]

/-! ### Halves of an entry (R180) -/

theorem halves_toNat (low high : Nat) : (halves low high).toNat = high % 65536 * 65536 + low % 65536 :=
  calc (halves low high).toNat
    _ = (high % 65536) <<< 16 ||| low % 65536 := BitVec.toNat_append (BitVec.ofNat 16 high) (BitVec.ofNat 16 low)
    _ = (high % 65536) <<< 16 + low % 65536 := (Nat.shiftLeft_add_eq_or_of_lt (Nat.mod_lt low (by decide)) _).symm
    _ = high % 65536 * 65536 + low % 65536 := congrArg (· + low % 65536) (Nat.shiftLeft_eq ..)

theorem lowHalf_halves (low high : Nat) : lowHalf (halves low high) = low % 65536 := by
  rw [lowHalf_eq_mod, halves_toNat]
  omega

theorem highHalf_halves (low high : Nat) : highHalf (halves low high) = high % 65536 := by
  rw [highHalf_eq_div, halves_toNat]
  omega

theorem lowHalf_mod (w : Word32) : lowHalf w % 65536 = lowHalf w :=
  Nat.mod_eq_of_lt (Nat.lt_succ_of_le (lowHalf_le w))

theorem threshold_mod (w : Word32) : min (highHalf w) 400 % 65536 = min (highHalf w) 400 := by omega

theorem storesAgain_clampTier : StoresAgain clampTier := by
  intro w
  have noClamp : decide (400 < min (highHalf w) 400) = false := decide_eq_false (Nat.not_lt.mpr (Nat.min_le_right ..))
  simp only [clampTier, lowHalf_halves, highHalf_halves, lowHalf_mod, threshold_mod, min_assoc, min_self, noClamp]

/-- A U2 entry keeps its price; its high half is stored as 0 with no clamp. -/
def clampLastTier (w : Word32) : Word32 × Bool := (halves (lowHalf w) 0, false)

theorem storesAgain_clampLastTier : StoresAgain clampLastTier := by
  intro w
  simp only [clampLastTier, lowHalf_halves, lowHalf_mod]

/-! ### The stations' rights (R168, R180) -/

/-- The settings access of a STATIONS entry. -/
def settingsAccess (w : Word32) : Nat := (w.extractLsb' 3 2).toNat

/-- The bits of a STATIONS entry that are stored as written. -/
def keptRights (w : Word32) : Word32 := w &&& 0x67#32

theorem clampStation_eq (w : Word32) : clampStation w =
    (keptRights w ||| BitVec.ofNat 32 (min (settingsAccess w) 2 * 8), decide (2 < settingsAccess w)) := rfl

theorem settingsAccess_le (w : Word32) : settingsAccess w ≤ 3 :=
  Nat.le_of_lt_succ (w.extractLsb' 3 2).isLt

/-- The settings access stored, 0 to 2, leaves the other bits of the entry alone. -/
theorem settingsCode_bits : ∀ access ≤ 2, BitVec.ofNat 32 (access * 8) &&& 0x67#32 = 0#32
    ∧ (BitVec.ofNat 32 (access * 8)).extractLsb' 3 2 = BitVec.ofNat 2 access
    ∧ (BitVec.ofNat 32 (access * 8)).toNat < 2 ^ 7 := by decide

theorem keptRights_clampStation (w : Word32) : keptRights (clampStation w).1 = keptRights w := by
  obtain ⟨apart, -, -⟩ := settingsCode_bits _ (Nat.min_le_right (settingsAccess w) 2)
  simp only [clampStation_eq, keptRights, BitVec.and_or_distrib_right, BitVec.and_assoc, BitVec.and_self, apart,
    BitVec.or_zero]

theorem settingsAccess_clampStation (w : Word32) : settingsAccess (clampStation w).1 = min (settingsAccess w) 2 := by
  obtain ⟨-, placed, -⟩ := settingsCode_bits _ (Nat.min_le_right (settingsAccess w) 2)
  have kept : (keptRights w).extractLsb' 3 2 = 0#2 := by
    rw [keptRights, BitVec.extractLsb'_and]
    exact BitVec.and_zero
  rw [clampStation_eq, settingsAccess, BitVec.extractLsb'_or, kept, placed, BitVec.zero_or, BitVec.toNat_ofNat]
  omega

/-- Unused bits of a STATIONS entry are stored as 0. -/
theorem clampStation_lt (w : Word32) : (clampStation w).1.toNat < 128 := by
  obtain ⟨-, -, small⟩ := settingsCode_bits _ (Nat.min_le_right (settingsAccess w) 2)
  have kept : (keptRights w).toNat < 2 ^ 7 := by
    rw [keptRights, BitVec.toNat_and]
    exact Nat.and_le_right.trans_lt (by decide)
  rw [clampStation_eq, BitVec.toNat_or]
  exact Nat.or_lt_two_pow kept small

theorem storesAgain_clampStation : StoresAgain clampStation := by
  intro w
  rw [clampStation_eq (clampStation w).1, keptRights_clampStation, settingsAccess_clampStation]
  simp [clampStation_eq]

/-! ### The sheets' entries (R180) -/

theorem storesAgain_clampSize (i : Nat) : StoresAgain (clampSize i) :=
  .ite storesAgain_any <| .ite storesAgain_clampPrintLength <|
    .ite (storesAgain_clampTo (by decide) (by decide)) storesAgain_clampWidth

theorem storesAgain_clampPrice (i : Nat) : StoresAgain (clampPrice i) :=
  .ite (.ite storesAgain_clampLastTier storesAgain_clampTier) <|
    .ite (storesAgain_clampTo (by decide) (by decide)) <| .ite (storesAgain_clampTo (by decide) (by decide)) <|
    .ite (storesAgain_clampTo (by decide) (by decide)) storesAgain_any

theorem storesAgain_clampCalibration (i : Nat) : StoresAgain (clampCalibration i) := by
  have range {low high : Nat} (ordered : low ≤ high) (small : high ≤ 8000) : StoresAgain (clampTo low high) :=
    storesAgain_clampTo ordered (by omega)
  exact .ite (range (by decide) (by decide)) <| .ite storesAgain_any <| .ite storesAgain_balance <|
    .ite storesAgain_any <| .ite (range (by decide) (by decide)) <| .ite (range (by decide) (by decide)) <|
    .ite (range (by decide) (by decide)) <| .ite (range (by decide) (by decide)) <|
    .ite (range (by decide) (by decide)) <| .ite (range (by decide) (by decide)) <|
    .ite (range (by decide) (by decide)) <| .ite (range (by decide) (by decide)) storesAgain_any

theorem storesAgain_clampGeneral (i : Nat) : StoresAgain (clampGeneral i) := by
  have ranges : ∀ range ∈ generalRanges, range.1 ≤ range.2 ∧ range.2 < 2 ^ 32 := by decide
  unfold clampGeneral
  cases h : generalRanges[i]? with
  | none => exact storesAgain_any
  | some range =>
    obtain ⟨ordered, word⟩ := ranges range (List.mem_of_getElem? h)
    exact storesAgain_clampTo ordered word

theorem storesAgain_clampEntry (name : SheetName) (i : Nat) : StoresAgain (clampEntry name i) := by
  cases name with
  | size => exact storesAgain_clampSize i
  | price => exact storesAgain_clampPrice i
  | calibration => exact storesAgain_clampCalibration i
  | stations => exact .ite storesAgain_clampStation storesAgain_any
  | general => exact storesAgain_clampGeneral i

/-! ### The field of each entry (R180) -/

section
variable {c i k u : Nat} {w : Word32}

theorem clampEntry_printLength (hc : c < 16) : clampEntry .size (3 * c) w = clampPrintLength w := by
  simp (disch := omega) only [clampEntry, clampSize, if_pos, if_neg]

theorem clampEntry_borderLines (hc : c < 16) : clampEntry .size (3 * c + 1) w = clampTo 0 400 w := by
  simp (disch := omega) only [clampEntry, clampSize, if_pos, if_neg]

theorem clampEntry_rollWidth (hc : c < 16) : clampEntry .size (3 * c + 2) w = clampWidth w := by
  simp (disch := omega) only [clampEntry, clampSize, if_neg]

theorem clampEntry_tier (hc : c < 16) (hk : k < 2) : clampEntry .price (3 * c + k) w = clampTier w := by
  simp (disch := omega) only [clampEntry, clampPrice, if_pos, if_neg]

theorem clampEntry_lastTier (hc : c < 16) : clampEntry .price (3 * c + 2) w = clampLastTier w := by
  simp (disch := omega) only [clampEntry, clampPrice, clampLastTier, if_pos]

theorem clampEntry_baseTime (hi : i < 12) : clampEntry .calibration i w = clampTo 200 8000 w := if_pos hi

theorem clampEntry_labBalance (hi : i < 12) : clampEntry .calibration (16 + i) w = clampSigned (-40) 40 w := by
  simp (disch := omega) only [clampEntry, clampCalibration, if_pos, if_neg]

theorem clampEntry_aimDensity (hi : i < 12) : clampEntry .calibration (32 + i) w = clampTo 0 400 w := by
  simp (disch := omega) only [clampEntry, clampCalibration, if_pos, if_neg]

theorem clampEntry_interval (hu : u < 4) : clampEntry .calibration (44 + u) w = clampTo 0 4000 w := by
  simp (disch := omega) only [clampEntry, clampCalibration, if_pos, if_neg]

theorem clampEntry_strict (hu : u < 4) : clampEntry .calibration (48 + u) w = clampTo 0 1 w := by
  simp (disch := omega) only [clampEntry, clampCalibration, if_pos, if_neg]

theorem clampEntry_rights (hk : k < 31) : clampEntry .stations k w = clampStation w := if_pos hk

/-- The entries of one number each, with their ranges (R180). -/
def numberEntries : SheetName → List (Nat × Nat × Nat)
  | .price => [(48, 0, 999), (49, 0, 999), (50, 0, 999), (51, 0, 999), (52, 0, 100), (53, 0, 100), (54, 0, 99999)]
  | .calibration => [(52, 1024, 2047), (53, 1, 255), (54, 1, 20), (55, 10, 200), (56, 0, 10)]
  | .general => [(0, 0, 255), (1, 1, 16), (2, 4, 255), (3, 20000, 200000), (4, 10, 99), (5, 1, 32), (6, 1, 60),
      (7, 5, 60), (8, 200, 5000), (9, 1, 255), (10, 1, 254), (11, 1, 31)]
  | .size | .stations => []

theorem clampEntry_number (name : SheetName) :
    ∀ row ∈ numberEntries name, ∀ w, clampEntry name row.1 w = clampTo row.2.1 row.2.2 w := by
  intro row listed
  cases name with
  | size | stations => cases listed
  | price | calibration | general => fin_cases listed <;> exact fun _ => rfl

/-- The spare entries (R180). -/
def Spare (name : SheetName) (i : Nat) : Prop :=
  match name with
  | .size => 48 ≤ i
  | .price => 55 ≤ i
  | .calibration => (12 ≤ i ∧ i ≤ 15) ∨ (28 ≤ i ∧ i ≤ 31) ∨ 57 ≤ i
  | .stations => 31 ≤ i
  | .general => 12 ≤ i

theorem clampEntry_spare {name : SheetName} (spare : Spare name i) : clampEntry name i w = (w, false) := by
  cases name with
  | size => exact if_pos spare
  | price =>
    replace spare : 55 ≤ i := spare
    simp (disch := omega) only [clampEntry, clampPrice, if_neg]
  | calibration =>
    rcases spare with ⟨low, high⟩ | ⟨low, high⟩ | low <;>
      simp (disch := omega) only [clampEntry, clampCalibration, if_pos, if_neg]
  | stations => exact if_neg (Nat.not_lt.mpr spare)
  | general =>
    have beyond : generalRanges[i]? = none := List.getElem?_eq_none spare
    simp only [clampEntry, clampGeneral, beyond]

end

/-- Settles O20: an entry's field by its place (`clampEntry_…`), and what each field stores. -/
theorem storedValuesLieInRange : Obligations.StoredValuesLieInRange := by
  unfold Obligations.StoredValuesLieInRange
  intro number
  refine ⟨fun name i w _ => storesAgain_clampEntry name i w, fun c w hc => ⟨clampEntry_printLength hc,
    clampEntry_borderLines hc, fun low => ?_, fun listed next row above below => ?_⟩, fun c k w hc hk => ?_,
    fun i low high w listed => clampEntry_number .price _ listed w,
    fun i w hi => ⟨clampEntry_baseTime hi, clampEntry_labBalance hi, clampEntry_aimDensity hi⟩,
    fun u w hu => ⟨clampEntry_interval hu, clampEntry_strict hu⟩,
    fun i low high w listed => clampEntry_number .calibration _ listed w, fun k w hk => ?_,
    fun i low high w listed => clampEntry_number .general _ listed w, fun name i w _ spare => clampEntry_spare spare⟩
  · exact (clampEntry_rollWidth hc).trans (clampWidth_low low)
  · exact (clampEntry_rollWidth hc).trans (clampWidth_between row above below)
  · have price (high : Nat) : lowHalf (halves (lowHalf w) high) = lowHalf w :=
      (lowHalf_halves ..).trans (lowHalf_mod w)
    simp only [← lowHalf_eq_mod, ← highHalf_eq_div]
    by_cases last : k = 2
    · subst last
      rw [clampEntry_lastTier hc]
      exact ⟨price 0, fun h => absurd h (by decide), fun _ => ⟨highHalf_halves .., rfl⟩⟩
    · rw [clampEntry_tier hc (by omega)]
      exact ⟨price _, fun _ => ⟨(highHalf_halves ..).trans (threshold_mod w), rfl⟩, fun h => absurd h last⟩
  · rw [clampEntry_rights hk]
    exact ⟨clampStation_lt w, keptRights_clampStation w, settingsAccess_clampStation w, rfl⟩

end Sys2Proof.Machine
end
